-- ==== Sys2Proof/Word.lean ====
section
/-! DEFINITION. The words of the block (spec/00_scope.md R7, R8): fixed-width bit vectors. A value the
spec calls `iN` is the same bits read with `BitVec.toInt`. -/

namespace Sys2Proof

/-- A 16-bit word: `filt` (u16), `temperature`, `tc` and every calibration entry (i16), R12, R41, R52. -/
abbrev Word := BitVec 16

/-- The signed 32-bit accumulator of the interpolation (`ACC_WIDTH`, R6, R58). -/
abbrev Acc := BitVec 32

/-- The command word `CMD[2:0]` (R43). -/
abbrev Cmd := BitVec 3

/-- A 4-bit sample of the four buttons (`btn_in[3:0]`, R41, R50). -/
abbrev Nibble := BitVec 4

end Sys2Proof
end

