-- ==== Sys2Proof/Syntax.lean ====
section
/-! DEFINITION. The commands of the block and the ports their operands arrive on. The block has no
instruction set: what plays the part of an instruction is the command word, and its operand fields
are the input ports (spec/30_encoding.md, R41, R43, R44). -/

namespace Sys2Proof

/-- The five commands, one per row of spec/opcode_table.json (R44; R93 to R97). There are no operand
fields inside the command word (R43), so no constructor has an argument; RESET's two ignored bits
are no operand (R97). -/
inductive Instr where
  | nop
  | menuTick
  | fastTick
  | fastMenuTick
  | reset
  deriving DecidableEq, Repr, Inhabited

/-- The values on the input ports at one step edge (R41), the clock apart: the edge is the step
itself. `raw` is carried in 16 bits, the most that any `RAW_WIDTH` can need; whether it fits the port
is `Ports.fits` (R106). `tc` is signed (R47), `output` unsigned (R48); a button bit is 1 when the
button is pressed (R83). -/
structure Ports where
  rst      : Bool
  fastTick : Bool
  menuTick : Bool
  raw      : Word
  tc       : Word
  output   : BitVec 8
  off      : Bool
  pause    : Bool
  alarm    : Bool
  pump     : Bool
  btnIn    : Nibble
  deriving DecidableEq, Repr, Inhabited

/-- Every input port 0: what the ports hold before the first assignment of a trace (R54). -/
def Ports.zero : Ports :=
  { rst := false, fastTick := false, menuTick := false, raw := 0, tc := 0, output := 0,
    off := false, pause := false, alarm := false, pump := false, btnIn := 0 }

/-- The four buttons (R50). -/
inductive Button where
  | power
  | select
  | up
  | down
  deriving DecidableEq, Repr, Inhabited

/-- The four button classes (R51). -/
inductive ButtonClass where
  | idle
  | pressed
  | released
  | held
  deriving DecidableEq, Repr, Inhabited

end Sys2Proof
end

