-- ==== Sys2Proof/Config.lean ====
section
/-! DEFINITION. The implementation parameters (spec/00_scope.md R6). A parameter that R6 gives a value
is a constant here. A parameter that R6 marks OPEN is an argument of the model: a field of `Params`,
which State carries, whose value in `State.reset` is an opaque constant (log entry 1). What the
environment holds on the ports at an edge nobody has described is free too (log entry 2). -/

namespace Sys2Proof

/-- `PUMP_IDLE_MODE` (R6, R24): the pad state of the pump output when `pump_on = 0`. -/
inductive PumpIdleMode where
  | driveLow
  | float
  deriving DecidableEq, Repr, Inhabited

/-- `TEMP_SCALE` (R6, R66): tenths of which degree the table and `tc` are in. -/
inductive TempScale where
  | celsius
  | fahrenheit
  deriving DecidableEq, Repr, Inhabited

/-- The OPEN parameters of R6. The calibration table is a list of signed 16-bit entries (R33, R34). -/
structure Params where
  rawWidth     : Nat
  calTable     : List Word
  pumpIdleMode : PumpIdleMode
  tempScale    : TempScale
  deriving DecidableEq, Repr

namespace Config

/-- `K` (FILTER_SHIFT), R6. -/
abbrev filterShift : Nat := 4
/-- `FILT_WIDTH`, R6. -/
abbrev filtWidth : Nat := 16
/-- `FRAC_BITS`, R6. -/
abbrev fracBits : Nat := 6
/-- `INDEX_BITS`, R6. -/
abbrev indexBits : Nat := 5
/-- `CAL_TABLE_LEN`, R6. -/
abbrev calTableLen : Nat := 33
/-- `ACC_INIT`, R6. -/
abbrev accInit : Acc := 0
/-- `INTERP_STEPS`, R6. -/
abbrev interpSteps : Nat := 64
/-- `SEC_DIV`, R6. -/
abbrev secDiv : Nat := 16
/-- `PWM_PERIOD`, R6. -/
abbrev pwmPeriod : Nat := 100
/-- `COOL_BASE`, R6. -/
abbrev coolBase : Nat := 100
/-- `HEAT_LIMIT`, R6. -/
abbrev heatLimit : Nat := 100
/-- `ALARM_FROM`, R6. -/
abbrev alarmFrom : Nat := 75

/-- Free: `RAW_WIDTH` of the launched block, less 1, so that it lies in 1..12 (R6 with `K = 4`). -/
opaque rawWidthLessOne : Fin 12
/-- Free: the entries of the launched block's calibration table (R6, R33, N6). -/
opaque calEntry : Nat → Word
/-- Free: `PUMP_IDLE_MODE` of the launched block (R6). -/
opaque pumpIdleMode : PumpIdleMode
/-- Free: `TEMP_SCALE` of the launched block (R6). -/
opaque tempScale : TempScale
/-- Free: what the environment holds on the input ports at edge `n`, where State's `pending` does not
say (R41, R114; I11 and I12 of spec/93_implementation_defined.md: any value). -/
opaque environment : Nat → Ports

/-- The parameter set of the block that `State.reset` stands for: any set that R6 admits. -/
def launchParams : Params :=
  { rawWidth := rawWidthLessOne.val + 1
    calTable := (List.range calTableLen).map calEntry
    pumpIdleMode := pumpIdleMode
    tempScale := tempScale }

end Config

end Sys2Proof
end

