-- ==== Sys2Proof/WellFormed.lean ====
section
/-! DEFINITION. What must hold of a term before the machine takes it. A command has no operand fields
and no pattern is reserved, so every command is well formed (spec/30_encoding.md R43, R45); the
checks there are concern the parameter set and the port values (spec/60_exceptions.md R106). -/

namespace Sys2Proof

/-- Every command is well formed: no operand that a check could refuse (R43, R45). -/
def Instr.wf : Instr → Bool
  | .nop => true
  | .menuTick => true
  | .fastTick => true
  | .fastMenuTick => true
  | .reset => true

/-- `1 <= RAW_WIDTH <= 16 - K` (R6). -/
def rawWidthOk (w : Nat) : Bool :=
  decide (1 ≤ w) && decide (w + Config.filterShift ≤ Config.filtWidth)

/-- The parameter set keeps the constraints of R6: `RAW_WIDTH` in range and `CAL_TABLE_LEN` entries
(that an entry is an i16 and that the pump mode is one of two is in their types). -/
def Params.wf (p : Params) : Bool :=
  rawWidthOk p.rawWidth && decide (p.calTable.length = Config.calTableLen)

/-- The port values fit their ports: `raw < 2^RAW_WIDTH` (R106; the other ports' widths are in their
types). The first alternative, true of 0 at every width, lets the test be computed where the width
is a free constant. -/
def Ports.fits (rawWidth : Nat) (p : Ports) : Bool :=
  p.raw == 0 || decide (p.raw.toNat < 2 ^ rawWidth)

/-- A parameter set as one may write it down before it is checked: numbers of any size and the pump
mode by its name in R6. -/
structure ParamRequest where
  rawWidth     : Nat
  calTable     : List Int
  pumpIdleMode : String
  tempScale    : TempScale
  deriving DecidableEq, Repr

/-- The entry is in i16 (R7, R106). -/
def inI16 (v : Int) : Bool := decide (-32768 ≤ v) && decide (v ≤ 32767)

/-- The pump mode's name, if R6 has one of that name. -/
def pumpIdleModeOf (name : String) : Option PumpIdleMode :=
  if name = "DRIVE_LOW" then some .driveLow
  else if name = "FLOAT" then some .float
  else none

/-- No constraint of R6 is broken by the requested set (R106). -/
def ParamRequest.wf (q : ParamRequest) : Bool :=
  rawWidthOk q.rawWidth && decide (q.calTable.length = Config.calTableLen) &&
    q.calTable.all inI16 && (pumpIdleModeOf q.pumpIdleMode).isSome

end Sys2Proof
end

