-- ==== Sys2Proof/Decode.lean ====
section
/-! DEFINITION. The command word's decoder, total (spec/30_encoding.md R43, R44, R45), and the encoder
written from the same table. -/

namespace Sys2Proof

/-- `CMD[2:0] = {rst, fast_tick, menu_tick}` (R43). -/
def Ports.cmd (p : Ports) : Cmd :=
  BitVec.ofBool p.rst ++ BitVec.ofBool p.fastTick ++ BitVec.ofBool p.menuTick

/-- The strobes set so that the command word is `w`; every other port as it was. -/
def Ports.withCmd (p : Ports) (w : Cmd) : Ports :=
  { p with rst := w.getLsbD 2, fastTick := w.getLsbD 1, menuTick := w.getLsbD 0 }

/-- The decoder of R44: `rst` dominates, then the two ticks select. Total on the 3-bit word (R45). -/
def decode (w : Cmd) : Instr :=
  if w.getLsbD 2 then .reset
  else if w.getLsbD 1 then (if w.getLsbD 0 then .fastMenuTick else .fastTick)
  else (if w.getLsbD 0 then .menuTick else .nop)

/-- Why a number handed to the decoder from outside is no command word. -/
inductive DecodeError where
  /-- The number has a bit above `CMD[2]`; there is one length, 3 bits (R43, R53). Safe. -/
  | widerThanCommandWord
  deriving DecidableEq, Repr

/-- The decoder on any number: a number of more than 3 bits is no command word (R43, R53). -/
def decodeNat (w : Nat) : Except DecodeError Instr :=
  if w < 8 then .ok (decode (BitVec.ofNat 3 w)) else .error .widerThanCommandWord

/-- The decoder on bytes, where a command word is handed over as the low three bits of one byte:
the command and the rest, or nothing when there is no byte. -/
def decodeBytes : List (BitVec 8) → Option (Except DecodeError Instr × List (BitVec 8))
  | [] => none
  | b :: rest => some (decodeNat b.toNat, rest)

/-- The match column of R44's table: the command word of each command, with the ignored bits of RESET
written 0. -/
def encode : Instr → Cmd
  | .nop => 0b000
  | .menuTick => 0b001
  | .fastTick => 0b010
  | .fastMenuTick => 0b011
  | .reset => 0b100

/-- The mask column of R44's table: which bits of the word select the command. -/
def encodeMask : Instr → Cmd
  | .nop => 0b111
  | .menuTick => 0b111
  | .fastTick => 0b111
  | .fastMenuTick => 0b111
  | .reset => 0b100

/-- Row `i` of R44's table matches the word: `word & mask = match`. -/
def rowMatches (i : Instr) (w : Cmd) : Bool := w &&& encodeMask i == encode i

/-- The host's question: the command read from an instruction whose bits are `w`, numbered as
spec/opcode_table.json numbers them. Bits at or above `nbits` are 0. -/
def decodeTableWord (nbits w : Nat) : Option Instr :=
  match decodeNat (w % 2 ^ nbits) with
  | .ok i => some i
  | .error _ => none

end Sys2Proof
end

