-- ==== Sys2Proof/Machine/State.lean ====
section
/-! DEFINITION. State (spec/10_state.md R12): `Regs` is exactly the twelve registers of R12. `State` is
those registers and what the spec calls an argument of the model or an input: the OPEN parameters
(R6), the values on the input ports (R29, R41) and the environment's coming values. -/

namespace Sys2Proof.Machine

/-- The registers of R12, and nothing else. -/
structure Regs where
  /-- The exponential-filter accumulator, u16 (R15). -/
  filt          : Word
  /-- The calibrated temperature, i16, tenths of a degree (R16). -/
  temperature   : Word
  /-- Fast ticks modulo 16, u4 (R17). -/
  secDiv        : BitVec 4
  /-- 1 after a step that ran a conversion (R18). -/
  secTick       : Bool
  /-- The duty counter, u7, 0..99 (R19). -/
  outputCounter : BitVec 7
  /-- The working copy of `output`, u8 (R20). -/
  o             : BitVec 8
  /-- The heat relay (R21). -/
  heat          : Bool
  /-- The cool relay (R21). -/
  cool          : Bool
  /-- The alarm output (R22). -/
  buzzer        : Bool
  /-- The pause indicator (R23). -/
  pauseInd      : Bool
  /-- The pump drive request (R24). -/
  pumpOn        : Bool
  /-- The button history, previous sample in bits 7..4, current in bits 3..0 (R25, R50). -/
  btnHist       : BitVec 8
  deriving DecidableEq, Repr

/-- Every register at its reset value (R12, R111). -/
def Regs.reset : Regs :=
  { filt := 0, temperature := 0, secDiv := 0, secTick := false, outputCounter := 0, o := 0,
    heat := false, cool := false, buzzer := false, pauseInd := false, pumpOn := false, btnHist := 0 }

/-- The block's registers and, beside them, the model's own fields (log entries 1 and 2). -/
structure State where
  /-- The state of the block, R12. -/
  regs    : Regs
  /-- The OPEN parameters, an argument of the model that no step writes (R6, R40). -/
  params  : Params
  /-- The values read on the input ports at the current edge (R9, R41). -/
  ports   : Ports
  /-- The values the environment will hold on the ports at the coming edges, first edge first. -/
  pending : List Ports
  /-- How many edges have been sampled: what the free environment value is applied to. -/
  edge    : Nat
  deriving DecidableEq, Repr

/-- The state with other registers and everything else as it was: the commit of a step (R9). -/
def State.withRegs (s : State) (r : Regs) : State := { s with regs := r }

/-- The state at the next edge, the values `p` sampled and `rest` still to come (R9). -/
def State.sampled (s : State) (p : Ports) (rest : List Ports) : State :=
  { s with ports := p, pending := rest, edge := s.edge + 1 }

/-- Right after reset: every register at the value of R111. The parameters are any admitted set
(log entry 1); the ports are 0 and no coming value is described (log entries 2 and 3). -/
def State.reset : State :=
  { regs := Regs.reset, params := Config.launchParams, ports := Ports.zero, pending := [], edge := 0 }

/-- The model faults (R105): the hardware has none (R101). -/
inductive Fault where
  /-- `CalRead(i)` outside the table (R33, R105). Raised by a converting FAST_TICK or FAST_MENU_TICK
  when the table has fewer than 33 entries; unreachable from an admitted parameter set. Safe. -/
  | calIndexOutOfRange (i : Nat)
  deriving DecidableEq, Repr

/-- The refusals (R106). -/
inductive Refusal where
  /-- An instruction with no meaning yet, by its mnemonic: raised by an arm of exec. Safe. No arm
  raises it in this model. -/
  | notModelled (mnemonic : String)
  /-- A step's `raw` is not below `2^RAW_WIDTH` and cannot be on the port (R106). Raised by step.
  Safe. -/
  | portTooWide
  /-- `RAW_WIDTH` outside `1 .. 16 - K` (R6, R106). Raised by launch. Safe. -/
  | badRawWidth (w : Nat)
  /-- `CAL_TABLE` of a length other than 33 (R106). Raised by launch. Safe. -/
  | badTableLength (n : Nat)
  /-- A `CAL_TABLE` entry outside i16 (R106). Raised by launch. Safe. -/
  | badTableEntry
  /-- A `PUMP_IDLE_MODE` that is neither of the two (R106). Raised by launch. Safe. -/
  | badPumpIdleMode
  deriving DecidableEq, Repr

end Sys2Proof.Machine
end

