-- ==== Sys2Proof/Machine/Ops.lean ====
section
/-! DEFINITION. The operations every command shares: the one memory read there is, and the commit of a
step. The block has no exception, trap or interrupt, so there is no exception to take and none to
return from (spec/60_exceptions.md R101, R102, R104). -/

namespace Sys2Proof.Machine

/-- The one memory of the block: the calibration table, addressed by entry, never by byte (R32, R34).
Its form is that it has exactly the entries 0..32 (R33). -/
abbrev Memory := List Word

/-- The table has the entries that R33 gives it. -/
def Memory.wf (m : Memory) : Bool := decide (m.length = Config.calTableLen)

/-- `CalRead(i)`: the whole entry `i`, or the model fault outside the table (R33, R36, R105). -/
def calRead (m : Memory) (i : Nat) : Except Fault Word :=
  match m[i]? with
  | some v => .ok v
  | none => .error (.calIndexOutOfRange i)

/-- The end of a step (R9): the working copy becomes the state; a model fault commits nothing
(R105). -/
def commit (s : State) : Except Fault Regs → Host.Outcome State Fault Refusal
  | .ok r => .next (s.withRegs r)
  | .error f => .fault f

end Sys2Proof.Machine
end

