-- ==== Sys2Proof/Machine/Operands.lean ====
section
/-! DEFINITION. Operand assembly and the packed values (spec/30_encoding.md R46 to R52). -/

namespace Sys2Proof.Machine

/-- The raw code as the filter takes it, `zext_16(raw)` (R46). -/
def rawOperand (q : Ports) : Word := q.raw

/-- The offset as the conversion takes it, `sext_32(tc)` (R47, R60). -/
def tcOperand (q : Ports) : Acc := q.tc.signExtend 32

/-- The commanded duty, unsigned, unchanged (R48). -/
def outputOperand (q : Ports) : BitVec 8 := q.output

/-- SPLIT's fraction `a = filt[K+5:K]` (R49, R59). -/
def splitFraction (filt : Word) : BitVec Config.fracBits :=
  filt.extractLsb' Config.filterShift Config.fracBits

/-- SPLIT's table index `b = filt[K+10:K+6]` (R49, R59). -/
def splitIndex (filt : Word) : BitVec Config.indexBits :=
  filt.extractLsb' (Config.filterShift + Config.fracBits) Config.indexBits

/-- The button's bit number inside a nibble (R50). -/
def buttonBit : Button → Nat
  | .power => 3
  | .select => 2
  | .up => 1
  | .down => 0

/-- The button's bit of the current sample, `btn_hist[i]` (R50). -/
def btnCurrent (h : BitVec 8) (b : Button) : Bool := h.getLsbD (buttonBit b)

/-- The button's bit of the previous sample, `btn_hist[i+4]` (R50). -/
def btnPrevious (h : BitVec 8) (b : Button) : Bool := h.getLsbD (buttonBit b + 4)

/-- The class whose code is `{previous, current}` (R51). -/
def classOf (previous current : Bool) : ButtonClass :=
  match previous, current with
  | false, false => .idle
  | false, true => .pressed
  | true, false => .released
  | true, true => .held

/-- The 2-bit code of a class (R51). -/
def classCode : ButtonClass → BitVec 2
  | .idle => 0b00
  | .pressed => 0b01
  | .released => 0b10
  | .held => 0b11

end Sys2Proof.Machine
end

