-- ==== Sys2Proof/Machine/Flags.lean ====
section
/-! DEFINITION. The mode flags. The block has no status flags and no condition codes, and no command
writes a flag (spec/10_state.md R26); `OFF`, `PAUSE`, `ALARM` and `PUMP` are input ports read at a
fast tick (spec/41_pwm.md R77). -/

namespace Sys2Proof.Machine

/-- `not OFF and not PAUSE`: when it fails, both actuators and the pump are forced off (R71, R72, R73,
R76). -/
def notForcedOff (q : Ports) : Bool := !q.off && !q.pause

/-- `PAUSE and not OFF`: when the pause indicator blinks (R75). -/
def pausedNotOff (q : Ports) : Bool := q.pause && !q.off

end Sys2Proof.Machine
end

