-- ==== Sys2Proof/Machine/Acq.lean ====
section
/-! DEFINITION. ACQ, the temperature calibration interpolator (spec/40_acquisition.md R56 to R68). Each
operation maps the working copy of the registers to the next one (R9). -/

namespace Sys2Proof.Machine

/-- FILTER_STEP (R56): `filt <- trunc_16(filt - (filt >> K) + zext_16(raw))`. -/
def filterStep (q : Ports) (r : Regs) : Regs :=
  { r with filt := r.filt - (r.filt >>> Config.filterShift) + rawOperand q }

/-- SEC_DIV_STEP (R57): the divider. -/
def secDivStep (r : Regs) : Regs :=
  { r with secDiv := BitVec.ofNat 4 ((r.secDiv.toNat + 1) % Config.secDiv) }

/-- `convert_due`, the step-local value SEC_DIV_STEP leaves: `sec_div = 0` after the divider (R57). -/
def convertDue (r : Regs) : Bool := r.secDiv == 0

/-- The accumulation loop of INTERP (R58) from an initial value: for `i = 0 .. 63` add `lo` if
`a <= i`, else `hi`. -/
def interpAcc (init : Acc) (lo hi : Word) (a : BitVec Config.fracBits) : Acc :=
  (List.range Config.interpSteps).foldl
    (fun acc i => acc + (if a.toNat ≤ i then lo.signExtend 32 else hi.signExtend 32)) init

/-- INTERP (R58): the accumulated sum, shifted right 6 arithmetically. -/
def interp (lo hi : Word) (a : BitVec Config.fracBits) : Acc :=
  (interpAcc Config.accInit lo hi a).sshiftRight 6

/-- The two table reads of a conversion, `CalRead(b)` then `CalRead(b + 1)` (R60). -/
def calPair (m : Memory) (b : BitVec Config.indexBits) : Except Fault (Word × Word) :=
  match calRead m b.toNat with
  | .error f => .error f
  | .ok lo =>
    match calRead m (b.toNat + 1) with
    | .error f => .error f
    | .ok hi => .ok (lo, hi)

/-- The value a conversion writes: `wrap_i16(INTERP(lo, hi, a) + sext_32(tc))` (R60). -/
def convertedValue (q : Ports) (filt lo hi : Word) : Word :=
  (interp lo hi (splitFraction filt) + tcOperand q).setWidth 16

/-- CONVERT (R60): on the converting tick the new temperature and `sec_tick = 1`; on the others
`sec_tick = 0` and the temperature held. -/
def convert (m : Memory) (q : Ports) (due : Bool) (r : Regs) : Except Fault Regs :=
  if due then
    match calPair m (splitIndex r.filt) with
    | .error f => .error f
    | .ok (lo, hi) => .ok { r with temperature := convertedValue q r.filt lo hi, secTick := true }
  else .ok { r with secTick := false }

/-- The ACQ half of a fast tick, in the order of R67 and R98. -/
def acqStep (m : Memory) (q : Ports) (r : Regs) : Except Fault Regs :=
  convert m q (convertDue (secDivStep (filterStep q r))) (secDivStep (filterStep q r))

end Sys2Proof.Machine
end

