-- ==== Sys2Proof/Machine/Pwm.lean ====
section
/-! DEFINITION. PWM, the duty-cycle comparator (spec/41_pwm.md R69 to R82). In every operation `c` is
`output_counter` at the start of the step. -/

namespace Sys2Proof.Machine

/-- LATCH (R69): the output latch, at the start of a cycle only. -/
def latchStep (q : Ports) (c : BitVec 7) (r : Regs) : Regs :=
  { r with o := if c = 0 then outputOperand q else r.o }

/-- HEAT (R71, with the force-off of R73). -/
def heatStep (q : Ports) (c : BitVec 7) (r : Regs) : Regs :=
  { r with heat := notForcedOff q && decide (r.o.toNat < Config.heatLimit) && decide (c.toNat < r.o.toNat) }

/-- COOL (R72, with the force-off of R73). -/
def coolStep (q : Ports) (c : BitVec 7) (r : Regs) : Regs :=
  { r with cool := notForcedOff q && decide (c.toNat + Config.coolBase < r.o.toNat) }

/-- BUZZER (R74): not gated by `OFF` or `PAUSE`. -/
def buzzerStep (q : Ports) (c : BitVec 7) (r : Regs) : Regs :=
  { r with buzzer := q.alarm && decide (Config.alarmFrom ≤ c.toNat) }

/-- PAUSE_IND (R75): on at even `c`. -/
def pauseIndStep (q : Ports) (c : BitVec 7) (r : Regs) : Regs :=
  { r with pauseInd := pausedNotOff q && decide (c.toNat % 2 = 0) }

/-- PUMP (R76). -/
def pumpStep (q : Ports) (r : Regs) : Regs :=
  { r with pumpOn := q.pump && notForcedOff q }

/-- COUNTER_STEP (R70): the only wrap is at 100. -/
def counterStep (c : BitVec 7) (r : Regs) : Regs :=
  { r with outputCounter := BitVec.ofNat 7 ((c.toNat + 1) % Config.pwmPeriod) }

/-- PWM_STEP (R78): LATCH, HEAT, COOL, BUZZER, PAUSE_IND, PUMP, COUNTER_STEP, with `c` the counter
before the step. -/
def pwmStep (q : Ports) (r : Regs) : Regs :=
  let c := r.outputCounter
  counterStep c (pumpStep q (pauseIndStep q c (buzzerStep q c (coolStep q c (heatStep q c (latchStep q c r))))))

end Sys2Proof.Machine
end

