-- ==== Sys2Proof/Machine/Deb.lean ====
section
/-! DEFINITION. DEB, the button debounce filter (spec/42_debounce.md R83 to R92): the one stateful
operation and the combinational functions of the history. -/

namespace Sys2Proof.Machine

/-- BTN_SAMPLE (R84): `btn_hist <- {btn_hist[3:0], btn_in[3:0]}`. -/
def btnSample (q : Ports) (r : Regs) : Regs :=
  { r with btnHist := ((r.btnHist <<< 4) &&& 0xF0) ||| q.btnIn.setWidth 8 }

/-- CLASSIFY (R85): the class of one button. -/
def classify (h : BitVec 8) (b : Button) : ButtonClass := classOf (btnPrevious h b) (btnCurrent h b)

/-- HELD_OR_RELEASED (R86): the four previous-sample bits, `btn_hist[7:4]`. -/
def heldOrReleased (h : BitVec 8) : Nibble := h.extractLsb' 4 4

/-- The four buttons, from bit 3 to bit 0 (R50). -/
def allButtons : List Button := [.power, .select, .up, .down]

/-- ACK_EVENT (R87): some button Released and none Held. -/
def ackEvent (h : BitVec 8) : Bool :=
  allButtons.any (fun b => classify h b == .released) &&
    !(allButtons.any (fun b => classify h b == .held))

/-- ANY_ACTIVE (R88): some button not Idle. -/
def anyActive (h : BitVec 8) : Bool := h != 0

end Sys2Proof.Machine
end

