-- ==== Sys2Proof/Machine/Commands.lean ====
section
/-! DEFINITION. The meanings of the five commands (spec/43_commands.md R93 to R98), each over the
operations of ACQ, PWM and DEB. -/

namespace Sys2Proof.Machine

/-- The fast-tick half of a step on a working copy: FILTER_STEP, SEC_DIV_STEP, CONVERT, PWM_STEP
(R95, R98). -/
def fastHalf (m : Memory) (q : Ports) (r : Regs) : Except Fault Regs :=
  match acqStep m q r with
  | .error f => .error f
  | .ok r' => .ok (pwmStep q r')

/-- The registers as RESET writes them (R97). -/
def resetRegs : Regs :=
  { filt := 0, temperature := 0, secDiv := 0, secTick := false, outputCounter := 0, o := 0,
    heat := false, cool := false, buzzer := false, pauseInd := false, pumpOn := false, btnHist := 0 }

/-- NOP (R93): no register is written, no input read. -/
def execNop (s : State) : Host.Outcome State Fault Refusal := .next s

/-- MENU_TICK (R94): BTN_SAMPLE. -/
def execMenuTick (s : State) : Host.Outcome State Fault Refusal :=
  .next (s.withRegs (btnSample s.ports s.regs))

/-- FAST_TICK (R95). -/
def execFastTick (s : State) : Host.Outcome State Fault Refusal :=
  commit s (fastHalf s.params.calTable s.ports s.regs)

/-- FAST_MENU_TICK (R96): BTN_SAMPLE, then as FAST_TICK. -/
def execFastMenuTick (s : State) : Host.Outcome State Fault Refusal :=
  commit s (fastHalf s.params.calTable s.ports (btnSample s.ports s.regs))

/-- RESET (R97, R112): every register to its reset value, whatever the ports hold. The parameters and
the environment's values are not state of the block and stay (R29, R97). -/
def execReset (s : State) : Host.Outcome State Fault Refusal := .next (s.withRegs resetRegs)

end Sys2Proof.Machine
end

