-- ==== Sys2Proof/Machine/Dispatch.lean ====
section
/-! DEFINITION. One arm per command (spec/30_encoding.md R44). -/

namespace Sys2Proof.Machine

def exec (i : Instr) (s : State) : Host.Outcome State Fault Refusal :=
  match i with
  | .nop => Sys2Proof.Machine.execNop s
  | .menuTick => Sys2Proof.Machine.execMenuTick s
  | .fastTick => Sys2Proof.Machine.execFastTick s
  | .fastMenuTick => Sys2Proof.Machine.execFastMenuTick s
  | .reset => Sys2Proof.Machine.execReset s

end Sys2Proof.Machine
end

