-- ==== Sys2Proof/Machine/Sampling.lean ====
section
/-! DEFINITION. How a step reads its input ports: once, at the edge, as the values the environment
holds there (spec/00_scope.md R9; spec/30_encoding.md R41). This is what fetching is on this block. -/

namespace Sys2Proof.Machine

/-- The free values of the environment at edge `n`, with `raw` kept to the port's width: a wider value
cannot be on the port (R106). -/
def freePorts (rawWidth n : Nat) : Ports :=
  { Config.environment n with
    raw := BitVec.ofNat 16 ((Config.environment n).raw.toNat % 2 ^ rawWidth) }

/-- Sample the ports at the next edge: the first of the coming values, or, where none is described,
the free ones (I11). -/
def sample (s : State) : State :=
  match s.pending with
  | p :: rest => s.sampled p rest
  | [] => s.sampled (freePorts s.params.rawWidth s.edge) []

/-- Run the command that the sampled strobes select (R43, R44), or refuse a step whose port holds a
value wider than the port (R106). -/
def runSampled (s : State) : Host.Outcome State Fault Refusal :=
  if s.ports.fits s.params.rawWidth then exec (decode s.ports.cmd) s else .refused .portTooWide

/-- The coming port values with the command word of the next edge set to `w`: every other port of that
edge as described, or, where that edge is not described, as it was (R54). -/
def pendingWithCmd (s : State) (w : Cmd) : List Ports :=
  match s.pending with
  | p :: rest => p.withCmd w :: rest
  | [] => [s.ports.withCmd w]

end Sys2Proof.Machine
end

