-- ==== Sys2Proof/Machine/Step.lean ====
section
/-! DEFINITION. One step: one active clock edge (spec/00_scope.md R9). The block has no program counter
and fetches no instructions (spec/10_state.md R14): the command is what the strobes hold at the
edge. -/

namespace Sys2Proof.Machine

/-- Sample the ports, then run the command they select. -/
def step (s : State) : Host.Outcome State Fault Refusal := runSampled (sample s)

/-- The state whose next edge holds the command word `w` on its strobes (log entry 8): bits above
`CMD[2]` have no port to stand on. -/
def State.withFetchWord (s : State) (nbits w : Nat) : State :=
  { s with pending := pendingWithCmd s (BitVec.ofNat 3 (w % 2 ^ nbits)) }

end Sys2Proof.Machine
end

