-- ==== Sys2Proof/Machine/Outputs.lean ====
section
/-! DEFINITION. The output ports (spec/30_encoding.md R42): functions of committed state only. -/

namespace Sys2Proof.Machine

/-- The electrical state of the pump output, "on/off/floating" (R24). -/
inductive PumpPad where
  | on
  | drivenLow
  | floating
  deriving DecidableEq, Repr

/-- The pump pad (R24, R76): on when the pump is driven, else as `PUMP_IDLE_MODE` says. -/
def pumpPad (m : PumpIdleMode) (pumpOn : Bool) : PumpPad :=
  if pumpOn then .on
  else
    match m with
    | .driveLow => .drivenLow
    | .float => .floating

/-- The values on the output ports (R42). `btnClass3` is `btn_class_3`, power, down to `btnClass0`. -/
structure Outputs where
  temperature : Word
  secTick     : Bool
  heat        : Bool
  cool        : Bool
  buzzer      : Bool
  pauseInd    : Bool
  pumpOn      : Bool
  pumpPad     : PumpPad
  btnHist     : BitVec 8
  btnClass3   : BitVec 2
  btnClass2   : BitVec 2
  btnClass1   : BitVec 2
  btnClass0   : BitVec 2
  heldOrRel   : Nibble
  ackEvent    : Bool
  anyActive   : Bool
  deriving DecidableEq, Repr

/-- The output ports of a state (R42). -/
def outputs (s : State) : Outputs :=
  let h := s.regs.btnHist
  { temperature := s.regs.temperature
    secTick := s.regs.secTick
    heat := s.regs.heat
    cool := s.regs.cool
    buzzer := s.regs.buzzer
    pauseInd := s.regs.pauseInd
    pumpOn := s.regs.pumpOn
    pumpPad := pumpPad s.params.pumpIdleMode s.regs.pumpOn
    btnHist := h
    btnClass3 := classCode (classify h .power)
    btnClass2 := classCode (classify h .select)
    btnClass1 := classCode (classify h .up)
    btnClass0 := classCode (classify h .down)
    heldOrRel := heldOrReleased h
    ackEvent := ackEvent h
    anyActive := anyActive h }

end Sys2Proof.Machine
end

