-- ==== Sys2Proof/Machine/Launch.lean ====
section
/-! DEFINITION. How a run starts: the parameters are fixed and checked, and the registers stand at
their reset values (spec/00_scope.md R6; spec/60_exceptions.md R106; spec/70_reset_and_hazards.md
R113, R114). -/

namespace Sys2Proof.Machine

/-- The reset state of a block with the parameters `p` and the coming port values `coming`. -/
def launchState (p : Params) (coming : List Ports) : State :=
  { regs := Regs.reset, params := p, ports := Ports.zero, pending := coming, edge := 0 }

/-- Launch: refuse a parameter set that breaks a constraint, by name, else start at reset (R106). -/
def launch (q : ParamRequest) (coming : List Ports) : Host.Outcome State Fault Refusal :=
  if !rawWidthOk q.rawWidth then .refused (.badRawWidth q.rawWidth)
  else if q.calTable.length ≠ Config.calTableLen then .refused (.badTableLength q.calTable.length)
  else if !q.calTable.all inI16 then .refused .badTableEntry
  else
    match pumpIdleModeOf q.pumpIdleMode with
    | none => .refused .badPumpIdleMode
    | some m =>
      .next (launchState
        { rawWidth := q.rawWidth, calTable := q.calTable.map (BitVec.ofInt 16), pumpIdleMode := m,
          tempScale := q.tempScale } coming)

end Sys2Proof.Machine
end

