-- ==== Sys2Proof/Machine/Trace.lean ====
section
/-! DEFINITION. Traces (spec/30_encoding.md R54, R55), as data: the lines of a trace, and the port
values at each edge that they stand for. -/

namespace Sys2Proof.Machine

/-- The ports a trace line assigns; a port not named keeps its value (R54). -/
structure Assign where
  raw    : Option Word := none
  tc     : Option Word := none
  output : Option (BitVec 8) := none
  off    : Option Bool := none
  pause  : Option Bool := none
  alarm  : Option Bool := none
  pump   : Option Bool := none
  btn    : Option Nibble := none
  deriving DecidableEq, Repr

/-- A trace line: a command, how many times it is written (R55's shorthands expanded by count), and
its assignments. -/
structure TraceLine where
  command : Instr
  times   : Nat := 1
  assign  : Assign := {}
  deriving DecidableEq, Repr

/-- `SECOND` is `FAST*16` (R55). -/
def second (a : Assign) : TraceLine := { command := .fastTick, times := 16, assign := a }

/-- `CYCLE` is `FAST*100` (R55). -/
def cycle (a : Assign) : TraceLine := { command := .fastTick, times := 100, assign := a }

/-- The ports after a line's assignments (R54). -/
def assignPorts (p : Ports) (a : Assign) : Ports :=
  { p with
    raw := a.raw.getD p.raw
    tc := a.tc.getD p.tc
    output := a.output.getD p.output
    off := a.off.getD p.off
    pause := a.pause.getD p.pause
    alarm := a.alarm.getD p.alarm
    pump := a.pump.getD p.pump
    btnIn := a.btn.getD p.btnIn }

/-- The port values at the edges of a line that starts with the ports at `p`: its assignments apply
from its first edge, and its command word is on the strobes (R54, R55). -/
def TraceLine.edges (p : Ports) (l : TraceLine) : List Ports :=
  List.replicate l.times ((assignPorts p l.assign).withCmd (encode l.command))

/-- The port values at every edge of a trace that starts with the ports at `p`. -/
def traceEdges (p : Ports) : List TraceLine → List Ports
  | [] => []
  | l :: rest => TraceLine.edges p l ++ traceEdges (assignPorts p l.assign) rest

/-- The state in which a trace is about to run: before the first assignment every port is 0 (R54). -/
def traceState (p : Params) (t : List TraceLine) : State := launchState p (traceEdges Ports.zero t)

end Sys2Proof.Machine
end

