-- ==== Sys2Proof/Safety.lean ====
section
/-! DEFINITION. What claims are stated in: the invariants of reachable states (spec/10_state.md R31 and
what follows from them) and runs. -/

namespace Sys2Proof

open Machine

/-- The largest value the filter takes, `2^(RAW_WIDTH + K) - 1` (R62). -/
def filtBound (rawWidth : Nat) : Nat := 2 ^ (rawWidth + Config.filterShift) - 1

/-- The invariants of reachable states: R31's, the admitted parameters (R6), and that the relays are
never on together (R79). -/
structure Inv (s : State) : Prop where
  params_wf : s.params.wf = true
  counter_range : s.regs.outputCounter.toNat ≤ 99
  filt_bound : s.regs.filt.toNat ≤ filtBound s.params.rawWidth
  sec_tick_div : s.regs.secTick = true → s.regs.secDiv = 0
  relays_exclusive : ¬(s.regs.heat = true ∧ s.regs.cool = true)

/-- The run of `n` steps from `s` ends well, in `t`. -/
def RunsTo (n : Nat) (s t : State) : Prop := core.run n s = .next t

/-- The environment holds `p` at the `k`-th coming edge (0 is the next one), and it fits the ports. -/
def EdgeHolds (s : State) (k : Nat) (p : Ports) : Prop :=
  s.pending[k]? = some p ∧ p.fits s.params.rawWidth = true

/-- The port values of a fast tick: FAST_TICK or FAST_MENU_TICK (R43). -/
def Ports.isFast (p : Ports) : Bool := !p.rst && p.fastTick

/-- The port values of a menu tick: MENU_TICK or FAST_MENU_TICK (R43). -/
def Ports.isMenu (p : Ports) : Bool := !p.rst && p.menuTick

/-- The next `n` edges are fast ticks whose port values satisfy `P`. -/
def FastEdges (s : State) (n : Nat) (P : Ports → Prop) : Prop :=
  ∀ k, k < n → ∃ p, EdgeHolds s k p ∧ p.isFast = true ∧ P p

/-- The edge `k` is a menu tick whose sample of the button is `v`. -/
def MenuEdge (s : State) (k : Nat) (b : Button) (v : Bool) : Prop :=
  ∃ p, EdgeHolds s k p ∧ p.isMenu = true ∧ p.btnIn.getLsbD (buttonBit b) = v

/-- The commands that run the fast tick (R44). -/
def IsFastCommand (i : Instr) : Prop := i = .fastTick ∨ i = .fastMenuTick

/-- The commands that sample the buttons (R44). -/
def IsMenuCommand (i : Instr) : Prop := i = .menuTick ∨ i = .fastMenuTick

end Sys2Proof
end

