-- ==== Sys2Proof/Certificates/Slice0/Obligations.lean ====
section
/-! DEFINITION. The statements for the provers, from the numbered rules of spec/. Each docstring names
the rule or the section it formalises; where the spec marks the point as its own decision (D<n>) or
derivation, the docstring says so. -/

open Sys2Proof Sys2Proof.Machine

/-! ### Command word, decoding, the step -/

/-- R44's table on all eight words, written out (decision D2). -/
def Obligations.CommandWordsDecode : Prop :=
  decode 0b000 = .nop ∧ decode 0b001 = .menuTick ∧ decode 0b010 = .fastTick ∧
  decode 0b011 = .fastMenuTick ∧ decode 0b100 = .reset ∧ decode 0b101 = .reset ∧
  decode 0b110 = .reset ∧ decode 0b111 = .reset

/-- The strobes' places in the word (R43) and what they select (R44), from any port values: `rst`
dominates, then the two ticks select. -/
def Obligations.StrobesSelectTheCommand : Prop :=
  ∀ p : Ports,
    (p.rst = true → decode p.cmd = .reset) ∧
    (p.rst = false → p.fastTick = true → p.menuTick = true → decode p.cmd = .fastMenuTick) ∧
    (p.rst = false → p.fastTick = true → p.menuTick = false → decode p.cmd = .fastTick) ∧
    (p.rst = false → p.fastTick = false → p.menuTick = true → decode p.cmd = .menuTick) ∧
    (p.rst = false → p.fastTick = false → p.menuTick = false → decode p.cmd = .nop)

/-- Decoding undoes encoding for every command, and every word is matched by exactly the row whose
command it decodes to (R45, derived by the spec from R44). -/
def Obligations.DecodeEncodeAgree : Prop :=
  (∀ i : Instr, i.wf = true → decode (encode i) = i) ∧
  (∀ (w : Cmd) (i : Instr), rowMatches i w = true ↔ decode w = i)

/-- A step samples the next edge's port values and is exec of the command their strobes select: the
coming values move up by one, the edge count by one. Where no coming value is described the sampled
values are the free ones (log entry 2), which always fit the ports. -/
def Obligations.StepRunsTheSampledCommand : Prop :=
  (∀ (s : State) (p : Ports) (rest : List Ports) (i : Instr),
    s.pending = p :: rest → p.fits s.params.rawWidth = true → decode p.cmd = i →
    step s = exec i { s with ports := p, pending := rest, edge := s.edge + 1 }) ∧
  (∀ s : State, s.pending = [] →
    step s = exec (decode (freePorts s.params.rawWidth s.edge).cmd)
      { s with ports := freePorts s.params.rawWidth s.edge, pending := [], edge := s.edge + 1 })

/-- A step whose port holds a value wider than the port is refused (the last sentence of R106). -/
def Obligations.TooWideRawIsRefused : Prop :=
  ∀ (s : State) (p : Ports) (rest : List Ports),
    s.pending = p :: rest → 2 ^ s.params.rawWidth ≤ p.raw.toNat →
    step s = .refused .portTooWide

/-! ### NOP, RESET, completion -/

/-- R93: NOP writes no register, from any state. -/
def Obligations.NopKeepsEverything : Prop := ∀ s : State, exec .nop s = .next s

/-- R111 and R97: the reset state has every register 0, and RESET from any state gives those registers.
That the parameters, the ports, the coming values and the edge count stay is the model's clause, read
from R29 and R40 by inference: log entry 10 (DEDUCED). -/
def Obligations.ResetGivesAllZero : Prop :=
  State.reset.regs =
    { filt := 0, temperature := 0, secDiv := 0, secTick := false, outputCounter := 0, o := 0,
      heat := false, cool := false, buzzer := false, pauseInd := false, pumpOn := false, btnHist := 0 } ∧
  ∀ s : State, exec .reset s = .next { s with regs := State.reset.regs }

/-- R112 and R97's corner case (decision D3): an edge with `rst = 1` gives the reset registers whatever
the two tick strobes hold and whatever values fitting their ports the other ports hold; a tick in that
step is lost. The premise `fits` leaves out a raw code wider than its port, which the model refuses
under every command, RESET included: log entry 4 (DEDUCED), stated in TooWideRawIsRefused. That the
parameters stay is log entry 10 (DEDUCED); that one coming edge is taken is the model's carrier of the
inputs, log entry 2 (DESIGN CHOICE). -/
def Obligations.ResetDominatesTheTicks : Prop :=
  ∀ (s : State) (p : Ports) (rest : List Ports),
    s.pending = p :: rest → p.fits s.params.rawWidth = true → p.rst = true →
    ∃ t, step s = .next t ∧ t.regs = State.reset.regs ∧ t.params = s.params ∧ t.pending = rest

/-- No command of the block can fail (R101), with an admitted parameter set. -/
def Obligations.EveryCommandCompletes : Prop :=
  ∀ (i : Instr) (s : State), s.params.wf = true → ∃ t, exec i s = .next t

/-- The block never stops (R125): with an admitted parameter set and a next edge whose values fit the
ports, or a next edge nobody has described, a step answers a next state. That the model describes the
coming edges by a list, free beyond its end, is log entry 2 (DESIGN CHOICE); that the premise on the port
values is needed under every command is log entry 4 (DEDUCED). -/
def Obligations.StepNeverStops : Prop :=
  ∀ s : State, s.params.wf = true →
    (∀ p, s.pending.head? = some p → p.fits s.params.rawWidth = true) →
    ∃ t, step s = .next t

/-! ### The table -/

/-- R33: CalRead answers the entry inside the table and faults, with the index, outside it. -/
def Obligations.CalReadAnswersInsideTheTable : Prop :=
  ∀ (m : Memory) (i : Nat), Memory.wf m = true →
    (∀ v, i < 33 → m[i]? = some v → calRead m i = .ok v) ∧ (i < 33 → ∃ v, m[i]? = some v) ∧
    (33 ≤ i → calRead m i = .error (.calIndexOutOfRange i))

/-- R105's two cases: with the source's literal 32 entries, a conversion with `b = 31` faults with
index 32 (V53), and a fast tick that does not convert completes whatever the table is. -/
def Obligations.ShortTableFaultsAtTheTop : Prop :=
  ∀ (i : Instr) (s : State), IsFastCommand i →
    (s.params.calTable.length = 32 → s.regs.secDiv.toNat = 15 →
      (s.regs.filt - (s.regs.filt >>> 4) + s.ports.raw).toNat / 1024 % 32 = 31 →
      exec i s = .fault (.calIndexOutOfRange 32)) ∧
    (s.regs.secDiv.toNat ≠ 15 → ∃ t, exec i s = .next t)

/-! ### ACQ -/

/-- R56: every fast tick runs the filter, with wrap at 16 bits. -/
def Obligations.FilterStepOnEveryFastTick : Prop :=
  ∀ (i : Instr) (s : State), IsFastCommand i → s.params.wf = true →
    ∃ t, exec i s = .next t ∧
      t.regs.filt.toNat =
        (s.regs.filt.toNat - s.regs.filt.toNat / 16 + s.ports.raw.toNat) % 65536

/-- R57: every fast tick advances the divider modulo 16, and the conversion is due (seen as
`sec_tick`, which every fast tick writes, R60) exactly when it returns to 0. -/
def Obligations.DividerSelectsTheConversion : Prop :=
  ∀ (i : Instr) (s : State), IsFastCommand i → s.params.wf = true →
    ∃ t, exec i s = .next t ∧
      t.regs.secDiv.toNat = (s.regs.secDiv.toNat + 1) % 16 ∧
      (t.regs.secTick = true ↔ (s.regs.secDiv.toNat + 1) % 16 = 0)

/-- R58: INTERP is the accumulated sum of 64 terms, `lo` where `a <= i` and `hi` elsewhere, divided by
64 with floor. -/
def Obligations.InterpIsTheFlooredSum : Prop :=
  ∀ (lo hi : Word) (a : BitVec 6),
    (interp lo hi a).toInt =
      ((List.range 64).map (fun i => if a.toNat ≤ i then lo.toInt else hi.toInt)).sum / 64

/-- R61 (the spec's derivation): INTERP equals `lo + floor(a * (hi - lo) / 64)`, bit for bit. -/
def Obligations.InterpClosedForm : Prop :=
  ∀ (lo hi : Word) (a : BitVec 6),
    (interp lo hi a).toInt = lo.toInt + a.toNat * (hi.toInt - lo.toInt) / 64

/-- R63 (the spec's derivation): the interpolated value lies between its two entries; and `a = 0`
returns `lo` exactly (R58's corner case). -/
def Obligations.InterpBetweenItsEntries : Prop :=
  ∀ (lo hi : Word) (a : BitVec 6),
    min lo.toInt hi.toInt ≤ (interp lo hi a).toInt ∧
    (interp lo hi a).toInt ≤ max lo.toInt hi.toInt ∧
    (interp lo hi 0).toInt = lo.toInt

/-- R59 and R60, with R58's sum written out: on a converting tick the index and the fraction come from
the filter value written in the same step (R67), the two entries are read from the table, and
`temperature` is the floored sum plus `tc`, wrapped to i16; on any other fast tick `temperature` holds
and `sec_tick` is 0. -/
def Obligations.ConversionWritesTheTemperature : Prop :=
  ∀ (i : Instr) (s : State), IsFastCommand i → s.params.wf = true →
    ∃ t, exec i s = .next t ∧
      (s.regs.secDiv.toNat = 15 → ∃ lo hi : Word,
        s.params.calTable[t.regs.filt.toNat / 1024 % 32]? = some lo ∧
        s.params.calTable[t.regs.filt.toNat / 1024 % 32 + 1]? = some hi ∧
        t.regs.temperature = BitVec.ofInt 16
          (((List.range 64).map (fun j =>
            if t.regs.filt.toNat / 16 % 64 ≤ j then lo.toInt else hi.toInt)).sum / 64
            + s.ports.tc.toInt) ∧
        t.regs.secTick = true) ∧
      (s.regs.secDiv.toNat ≠ 15 → t.regs.temperature = s.regs.temperature ∧ t.regs.secTick = false)

/-- R62 (the spec's derivation): from a filter at or below `2^(RAW_WIDTH+K) - 1`, with a raw code that
fits the port, the filter step does not wrap and stays at or below that bound. -/
def Obligations.FilterNeverWraps : Prop :=
  ∀ (i : Instr) (s : State), IsFastCommand i → s.params.wf = true →
    s.ports.raw.toNat < 2 ^ s.params.rawWidth →
    s.regs.filt.toNat ≤ 2 ^ (s.params.rawWidth + 4) - 1 →
    ∃ t, exec i s = .next t ∧
      t.regs.filt.toNat = s.regs.filt.toNat - s.regs.filt.toNat / 16 + s.ports.raw.toNat ∧
      t.regs.filt.toNat ≤ 2 ^ (s.params.rawWidth + 4) - 1

/-- R65 (the spec's derivation): in the band `16r .. 16r+15` a fast tick with raw code `r` of at most
11 bits gives the same filter value; a conversion there uses the low 11 bits of the raw code, `r / 64`
as index and `r mod 64` as fraction, so the temperature is R61's interpolation at `r` plus `tc`. -/
def Obligations.SteadyBandReadsTheRawCode : Prop :=
  ∀ (i : Instr) (s : State), IsFastCommand i → s.params.wf = true →
    s.ports.raw.toNat < 2048 →
    16 * s.ports.raw.toNat ≤ s.regs.filt.toNat → s.regs.filt.toNat ≤ 16 * s.ports.raw.toNat + 15 →
    ∃ t, exec i s = .next t ∧ t.regs.filt = s.regs.filt ∧
      (s.regs.secDiv.toNat = 15 → ∃ lo hi : Word,
        s.params.calTable[s.ports.raw.toNat / 64]? = some lo ∧
        s.params.calTable[s.ports.raw.toNat / 64 + 1]? = some hi ∧
        t.regs.temperature = BitVec.ofInt 16
          (lo.toInt + (s.ports.raw.toNat % 64 : Nat) * (hi.toInt - lo.toInt) / 64 + s.ports.tc.toInt))

/-- R65 (the spec's derivation), over runs: with a constant raw code held for enough fast ticks, from any
filter value, the filter is in the band `16r .. 16r+15`, and stays in it. The count 65536 is the
model's: the filter moves by at least 1 toward the band at each tick. -/
def Obligations.FilterSettlesInTheBand : Prop :=
  ∀ (s : State) (n : Nat) (r : Word), s.params.wf = true → 65536 ≤ n →
    FastEdges s n (fun p => p.raw = r) →
    ∃ t, RunsTo n s t ∧ 16 * r.toNat ≤ t.regs.filt.toNat ∧ t.regs.filt.toNat ≤ 16 * r.toNat + 15

/-- R17 and R18, with R99's level-sampled strobes, over runs of fast ticks alone: after `n` fast ticks
from a divider at 0 the divider is `n mod 16`; `sec_tick` is 1 exactly after every 16th; until the 16th
the temperature is as it was (R115). A NOP or MENU_TICK between the ticks changes none of this, which
NopKeepsEverything and MenuTickShiftsTheHistory say step by step. -/
def Obligations.EverySixteenthFastTickConverts : Prop :=
  ∀ (s : State) (n : Nat), s.params.wf = true → s.regs.secDiv = 0 →
    FastEdges s n (fun _ => True) →
    ∃ t, RunsTo n s t ∧ t.regs.secDiv.toNat = n % 16 ∧
      (0 < n → (t.regs.secTick = true ↔ n % 16 = 0)) ∧
      (n < 16 → t.regs.temperature = s.regs.temperature)

/-! ### PWM -/

/-- R69: `o` takes `output` when the counter is 0, and is unchanged otherwise. -/
def Obligations.LatchOnlyAtTheCycleStart : Prop :=
  ∀ (i : Instr) (s : State), IsFastCommand i → s.params.wf = true →
    ∃ t, exec i s = .next t ∧
      (s.regs.outputCounter = 0 → t.regs.o = s.ports.output) ∧
      (s.regs.outputCounter ≠ 0 → t.regs.o = s.regs.o)

/-- R70: the counter counts modulo 100, whatever the flags are. -/
def Obligations.DutyCounterCountsModulo100 : Prop :=
  ∀ (i : Instr) (s : State), IsFastCommand i → s.params.wf = true →
    ∃ t, exec i s = .next t ∧
      t.regs.outputCounter.toNat = (s.regs.outputCounter.toNat + 1) % 100

/-- R71: heat, with the `o` that LATCH leaves and the counter before the step. -/
def Obligations.HeatComparator : Prop :=
  ∀ (i : Instr) (s : State), IsFastCommand i → s.params.wf = true →
    ∃ t, exec i s = .next t ∧
      (t.regs.heat = true ↔ s.ports.off = false ∧ s.ports.pause = false ∧ t.regs.o.toNat < 100 ∧
        s.regs.outputCounter.toNat < t.regs.o.toNat)

/-- R72: cool, with the `o` that LATCH leaves and the counter before the step. -/
def Obligations.CoolComparator : Prop :=
  ∀ (i : Instr) (s : State), IsFastCommand i → s.params.wf = true →
    ∃ t, exec i s = .next t ∧
      (t.regs.cool = true ↔ s.ports.off = false ∧ s.ports.pause = false ∧
        s.regs.outputCounter.toNat + 100 < t.regs.o.toNat)

/-- R73 (the spec's derivation): with `PAUSE` or `OFF` both actuators are written 0, while the latch and
the counter still run. -/
def Obligations.PauseOrOffForcesTheRelaysOff : Prop :=
  ∀ (i : Instr) (s : State), IsFastCommand i → s.params.wf = true →
    s.ports.off = true ∨ s.ports.pause = true →
    ∃ t, exec i s = .next t ∧ t.regs.heat = false ∧ t.regs.cool = false ∧
      t.regs.o = (if s.regs.outputCounter = 0 then s.ports.output else s.regs.o) ∧
      t.regs.outputCounter.toNat = (s.regs.outputCounter.toNat + 1) % 100

/-- R74: the buzzer covers counter values 75 and above while `ALARM` holds, not gated by `OFF` or
`PAUSE` (decision D19). -/
def Obligations.BuzzerInTheLastQuarter : Prop :=
  ∀ (i : Instr) (s : State), IsFastCommand i → s.params.wf = true →
    ∃ t, exec i s = .next t ∧
      (t.regs.buzzer = true ↔ s.ports.alarm = true ∧ 75 ≤ s.regs.outputCounter.toNat)

/-- R75: the pause indicator is on at even counter values while `PAUSE` holds and `OFF` does not
(decision D20). -/
def Obligations.PauseIndicatorBlinks : Prop :=
  ∀ (i : Instr) (s : State), IsFastCommand i → s.params.wf = true →
    ∃ t, exec i s = .next t ∧
      (t.regs.pauseInd = true ↔
        s.ports.pause = true ∧ s.ports.off = false ∧ s.regs.outputCounter.toNat % 2 = 0)

/-- R76: the pump gate (decision D21). -/
def Obligations.PumpGate : Prop :=
  ∀ (i : Instr) (s : State), IsFastCommand i → s.params.wf = true →
    ∃ t, exec i s = .next t ∧
      (t.regs.pumpOn = true ↔ s.ports.pump = true ∧ s.ports.pause = false ∧ s.ports.off = false)

/-- R79 (the spec's derivation): no fast tick, from any state and with any port values, leaves both
relays on. -/
def Obligations.RelaysNeverBothOn : Prop :=
  ∀ (i : Instr) (s t : State), IsFastCommand i → exec i s = .next t →
    ¬(t.regs.heat = true ∧ t.regs.cool = true)

/-- R82: an `output` of 201..255 is latched at the start of a cycle like any other, and while it is in
`o` the heat is off and the cool on at every counter value 0..99 where neither flag forces it off. -/
def Obligations.OverRangeOutputCools : Prop :=
  ∀ (i : Instr) (s : State), IsFastCommand i → s.params.wf = true →
    s.regs.outputCounter.toNat ≤ 99 →
    (s.regs.outputCounter = 0 → 201 ≤ s.ports.output.toNat) →
    (s.regs.outputCounter ≠ 0 → 201 ≤ s.regs.o.toNat) →
    ∃ t, exec i s = .next t ∧ (s.regs.outputCounter = 0 → t.regs.o = s.ports.output) ∧
      201 ≤ t.regs.o.toNat ∧ t.regs.heat = false ∧
      (s.ports.off = false → s.ports.pause = false → t.regs.cool = true)

/-- R80 (the spec's derivation): over one cycle of 100 fast ticks that starts at counter 0 with
`output = v` and neither `OFF` nor `PAUSE`, heat is on at exactly the first `h(v)` ticks and cool at
exactly the first `k(v)`, with `h(v) = v` for `1 <= v <= 99` and 0 otherwise, `k(v) = min(v - 100, 100)`
for `v >= 101` and 0 otherwise. -/
def Obligations.DutyOverOneCycle : Prop :=
  ∀ (s : State) (v : BitVec 8), s.params.wf = true → s.regs.outputCounter = 0 →
    FastEdges s 100 (fun p => p.output = v ∧ p.off = false ∧ p.pause = false) →
    ∀ n, n < 100 → ∃ t, RunsTo (n + 1) s t ∧
      (t.regs.heat = true ↔ n < (if v.toNat ≤ 99 then v.toNat else 0)) ∧
      (t.regs.cool = true ↔ n < (if 101 ≤ v.toNat then min (v.toNat - 100) 100 else 0))

/-- R81 (the spec's derivation): in the middle of a cycle, over the fast ticks left in it, `o` keeps its
value whatever `output` holds; the first fast tick of the next cycle latches the `output` of that
tick. -/
def Obligations.OutputChangeWaitsForTheCycle : Prop :=
  ∀ (s : State) (n : Nat), s.params.wf = true → 1 ≤ s.regs.outputCounter.toNat →
    s.regs.outputCounter.toNat ≤ 99 → s.regs.outputCounter.toNat + n ≤ 100 → FastEdges s n (fun _ => True) →
    (∃ t, RunsTo n s t ∧ t.regs.o = s.regs.o) ∧
    (∀ p, s.regs.outputCounter.toNat + n = 100 → EdgeHolds s n p → p.isFast = true →
      ∃ t, RunsTo (n + 1) s t ∧ t.regs.o = p.output)

/-! ### DEB -/

/-- R94 and R84: MENU_TICK, from any state, writes `btn_hist <- {btn_hist[3:0], btn_in[3:0]}` and
nothing else; FAST_MENU_TICK leaves the same history. -/
def Obligations.MenuTickShiftsTheHistory : Prop :=
  (∀ s : State, exec .menuTick s = .next { s with regs :=
      { s.regs with btnHist := s.regs.btnHist.extractLsb' 0 4 ++ s.ports.btnIn } }) ∧
  (∀ s : State, s.params.wf = true → ∃ t, exec .fastMenuTick s = .next t ∧
      t.regs.btnHist = s.regs.btnHist.extractLsb' 0 4 ++ s.ports.btnIn)

/-- R85: the class of a button by the mask `m = 0x11 << i`. -/
def Obligations.ClassByMask : Prop :=
  ∀ (h : BitVec 8) (b : Button),
    (classify h b = .idle ↔ h &&& (0x11#8 <<< buttonBit b) = 0) ∧
    (classify h b = .pressed ↔ h &&& (0x11#8 <<< buttonBit b) = (0x11#8 <<< buttonBit b) &&& 0x0F) ∧
    (classify h b = .released ↔ h &&& (0x11#8 <<< buttonBit b) = (0x11#8 <<< buttonBit b) &&& 0xF0) ∧
    (classify h b = .held ↔ h &&& (0x11#8 <<< buttonBit b) = 0x11#8 <<< buttonBit b)

/-- R86, R87 and R88 on the output ports of any state (decision D26). -/
def Obligations.ButtonOutputs : Prop :=
  ∀ s : State,
    (∀ b : Button, (outputs s).heldOrRel.getLsbD (buttonBit b) = true ↔
      classify s.regs.btnHist b = .held ∨ classify s.regs.btnHist b = .released) ∧
    ((outputs s).ackEvent = true ↔
      (∃ b, classify s.regs.btnHist b = .released) ∧ ¬∃ b, classify s.regs.btnHist b = .held) ∧
    ((outputs s).anyActive = true ↔ ∃ b, classify s.regs.btnHist b ≠ .idle)

/-- R90 (the spec's derivation): the class of a button after a menu tick depends only on its class
before and its new sample, by R90's table. -/
def Obligations.ClassTransitionTable : Prop :=
  ∀ (i : Instr) (s : State) (b : Button), IsMenuCommand i → s.params.wf = true →
    ∃ t, exec i s = .next t ∧
      classify t.regs.btnHist b =
        (match classify s.regs.btnHist b, s.ports.btnIn.getLsbD (buttonBit b) with
        | .idle, false => .idle
        | .idle, true => .pressed
        | .pressed, false => .released
        | .pressed, true => .held
        | .released, false => .idle
        | .released, true => .pressed
        | .held, false => .released
        | .held, true => .held)

/-- R89 (the spec's derivation), over runs of menu ticks from an Idle button: `m + 1` samples of 1 give
Pressed at the first and Held at each further one, a 0 after them gives Released (for `m = 0`, Pressed
then Released), and a 0 after that Idle; samples of 0 alone give Idle. -/
def Obligations.ButtonPressSequence : Prop :=
  ∀ (s : State) (b : Button) (m : Nat), s.params.wf = true → classify s.regs.btnHist b = .idle →
    ((∀ k, k ≤ m → MenuEdge s k b true) →
      (∃ t, RunsTo 1 s t ∧ classify t.regs.btnHist b = .pressed) ∧
      (∀ k, 1 ≤ k → k ≤ m → ∃ t, RunsTo (k + 1) s t ∧ classify t.regs.btnHist b = .held) ∧
      (MenuEdge s (m + 1) b false →
        (∃ t, RunsTo (m + 2) s t ∧ classify t.regs.btnHist b = .released) ∧
        (MenuEdge s (m + 2) b false →
          ∃ t, RunsTo (m + 3) s t ∧ classify t.regs.btnHist b = .idle))) ∧
    ((∀ k, k < m → MenuEdge s k b false) → ∃ t, RunsTo m s t ∧ classify t.regs.btnHist b = .idle)

/-! ### Frames, order, what is read -/

/-- The frame of the fast ticks (R95, R96, R13): FAST_TICK leaves `btn_hist`, FAST_MENU_TICK writes it
only as BTN_SAMPLE does; both leave the temperature on a tick that does not convert, `o` where the
counter is not 0, and everything in State beside the registers. -/
def Obligations.FastTickFrame : Prop :=
  ∀ (i : Instr) (s t : State), IsFastCommand i → exec i s = .next t →
    (i = .fastTick → t.regs.btnHist = s.regs.btnHist) ∧
    (i = .fastMenuTick → t.regs.btnHist = s.regs.btnHist.extractLsb' 0 4 ++ s.ports.btnIn) ∧
    (s.regs.secDiv.toNat ≠ 15 → t.regs.temperature = s.regs.temperature) ∧
    (s.regs.outputCounter ≠ 0 → t.regs.o = s.regs.o) ∧
    t = { s with regs := t.regs }

/-- R96 and R98 (the spec's derivation): FAST_MENU_TICK ends in the state that MENU_TICK then FAST_TICK
end in, and that FAST_TICK then MENU_TICK end in, with the same inputs. -/
def Obligations.FastMenuIsBothTicksInEitherOrder : Prop :=
  ∀ s t : State,
    (exec .fastMenuTick s = .next t ↔ ∃ u, exec .menuTick s = .next u ∧ exec .fastTick u = .next t) ∧
    (exec .fastMenuTick s = .next t ↔ ∃ u, exec .fastTick s = .next u ∧ exec .menuTick u = .next t)

/-- R41's "read at" column (decision D1): two port assignments that agree where a command reads give
the same registers. NOP and RESET read nothing; a menu tick reads `btn_in`; a fast tick reads `raw` and
the flags, `output` when the counter is 0 and `tc` on a converting step. -/
def Obligations.OnlyTheNamedPortsAreRead : Prop :=
  ∀ (i : Instr) (s : State) (p : Ports) (t t' : State),
    (IsMenuCommand i → p.btnIn = s.ports.btnIn) →
    (IsFastCommand i → p.raw = s.ports.raw ∧ p.off = s.ports.off ∧ p.pause = s.ports.pause ∧
      p.alarm = s.ports.alarm ∧ p.pump = s.ports.pump ∧
      (s.regs.outputCounter = 0 → p.output = s.ports.output) ∧
      (s.regs.secDiv.toNat = 15 → p.tc = s.ports.tc)) →
    exec i s = .next t → exec i { s with ports := p } = .next t' → t.regs = t'.regs

/-- No rule of the block reads `TEMP_SCALE` or `PUMP_IDLE_MODE` (R66, R76; I8, I9): with other values
of them every command writes the same registers. -/
def Obligations.PadModeAndScaleAreNotRead : Prop :=
  ∀ (i : Instr) (s t : State) (m : PumpIdleMode) (c : TempScale), exec i s = .next t →
    ∃ t', exec i { s with params := { s.params with pumpIdleMode := m, tempScale := c } } = .next t' ∧
      t'.regs = t.regs

/-- R40: no step writes the parameters, the calibration table among them. That a step takes exactly one
coming edge's values and counts it is no rule of the block: it is how the model carries the inputs that
R9 has read once at each step, log entry 2 (DESIGN CHOICE). -/
def Obligations.StepKeepsTheParameters : Prop :=
  ∀ s t : State, step s = .next t →
    t.params = s.params ∧ t.pending = s.pending.tail ∧ t.edge = s.edge + 1

/-- R42: the registered output ports show the registers, the class ports the two bits of each button,
and the pump pad is on when `pump_on` is, else as `PUMP_IDLE_MODE` says (R24). -/
def Obligations.OutputsShowCommittedState : Prop :=
  ∀ s : State,
    (outputs s).temperature = s.regs.temperature ∧ (outputs s).secTick = s.regs.secTick ∧
    (outputs s).heat = s.regs.heat ∧ (outputs s).cool = s.regs.cool ∧
    (outputs s).buzzer = s.regs.buzzer ∧ (outputs s).pauseInd = s.regs.pauseInd ∧
    (outputs s).pumpOn = s.regs.pumpOn ∧ (outputs s).btnHist = s.regs.btnHist ∧
    (outputs s).btnClass3 = BitVec.ofBool (s.regs.btnHist.getLsbD 7) ++ BitVec.ofBool (s.regs.btnHist.getLsbD 3) ∧
    (outputs s).btnClass2 = BitVec.ofBool (s.regs.btnHist.getLsbD 6) ++ BitVec.ofBool (s.regs.btnHist.getLsbD 2) ∧
    (outputs s).btnClass1 = BitVec.ofBool (s.regs.btnHist.getLsbD 5) ++ BitVec.ofBool (s.regs.btnHist.getLsbD 1) ∧
    (outputs s).btnClass0 = BitVec.ofBool (s.regs.btnHist.getLsbD 4) ++ BitVec.ofBool (s.regs.btnHist.getLsbD 0) ∧
    (s.regs.pumpOn = true → (outputs s).pumpPad = .on) ∧
    (s.regs.pumpOn = false → s.params.pumpIdleMode = .driveLow → (outputs s).pumpPad = .drivenLow) ∧
    (s.regs.pumpOn = false → s.params.pumpIdleMode = .float → (outputs s).pumpPad = .floating)

/-! ### Launch and invariants -/

/-- R6 and R106: a parameter set that keeps every constraint is launched, with its table entry for
entry; any other is refused. That a launched block stands at the reset registers is R113 with R111
(decisions D34 and D4). That the parameters stand in the state, and that `t.pending` is the list of
coming values given at launch, is no rule of the block: it is how the model carries the block's arguments
(log entry 1, DESIGN CHOICE) and its inputs (log entry 2, DESIGN CHOICE). -/
def Obligations.LaunchTakesExactlyTheAdmittedSets : Prop :=
  ∀ (q : ParamRequest) (coming : List Ports),
    ((1 ≤ q.rawWidth ∧ q.rawWidth + 4 ≤ 16 ∧ q.calTable.length = 33 ∧
        (∀ v ∈ q.calTable, -32768 ≤ v ∧ v ≤ 32767) ∧
        (q.pumpIdleMode = "DRIVE_LOW" ∨ q.pumpIdleMode = "FLOAT")) →
      ∃ t, launch q coming = .next t ∧ t.regs = State.reset.regs ∧ t.pending = coming ∧
        t.params.rawWidth = q.rawWidth ∧ t.params.tempScale = q.tempScale ∧
        t.params.calTable.map BitVec.toInt = q.calTable ∧
        (q.pumpIdleMode = "DRIVE_LOW" → t.params.pumpIdleMode = .driveLow) ∧
        (q.pumpIdleMode = "FLOAT" → t.params.pumpIdleMode = .float)) ∧
    (¬(1 ≤ q.rawWidth ∧ q.rawWidth + 4 ≤ 16 ∧ q.calTable.length = 33 ∧
        (∀ v ∈ q.calTable, -32768 ≤ v ∧ v ≤ 32767) ∧
        (q.pumpIdleMode = "DRIVE_LOW" ∨ q.pumpIdleMode = "FLOAT")) →
      ∃ r, launch q coming = .refused r)

/-- The invariants of R31 (with R62's bound, R6's constraints and R79's exclusion) hold at reset. -/
def Obligations.ResetMeetsTheInvariants : Prop := Inv State.reset

/-- Every launched state meets the invariants: its registers are the reset state's (R113, R111), where
R31's derivation begins, and its parameters keep R6's constraints (R106). -/
def Obligations.LaunchMeetsTheInvariants : Prop :=
  ∀ (q : ParamRequest) (coming : List Ports) (t : State), launch q coming = .next t → Inv t

/-- R31 (the spec's derivation): from every state that meets the invariants, whatever the port values,
a step gives a state that meets them: the counter in 0..99, the filter at or below
`2^(RAW_WIDTH+K) - 1`, `sec_tick = 1` only with the divider at 0, the relays never both on, the
parameters admitted. -/
def Obligations.StepKeepsTheInvariants : Prop :=
  ∀ s t : State, Inv s → step s = .next t → Inv t

/-- The invariants hold after any run from a launched state, and no run whose described port values
fit the ports stops (R31, R101, R125). The described values are the model's carrier of the inputs, log
entry 2 (DESIGN CHOICE); that values which do not fit stop a step under every command is log entry 4
(DEDUCED). -/
def Obligations.EveryRunGoesOnAndIsSafe : Prop :=
  ∀ (s : State) (n : Nat), Inv s → (∀ p ∈ s.pending, p.fits s.params.rawWidth = true) →
    ∃ t, RunsTo n s t ∧ Inv t
end

