-- ==== Sys2Proof/Laws/State.lean ====
section
/-! SUPPORT. One lemma per field for each update of State and of the registers, so that no later proof
unfolds a record update. -/

namespace Sys2Proof.Machine

@[simp] theorem withRegs_regs (s : State) (r : Regs) : (s.withRegs r).regs = r := rfl
@[simp] theorem withRegs_params (s : State) (r : Regs) : (s.withRegs r).params = s.params := rfl
@[simp] theorem withRegs_ports (s : State) (r : Regs) : (s.withRegs r).ports = s.ports := rfl
@[simp] theorem withRegs_pending (s : State) (r : Regs) : (s.withRegs r).pending = s.pending := rfl
@[simp] theorem withRegs_edge (s : State) (r : Regs) : (s.withRegs r).edge = s.edge := rfl

@[simp] theorem sampled_regs (s : State) (p : Ports) (rest : List Ports) :
    (s.sampled p rest).regs =
      s.regs := rfl
@[simp] theorem sampled_params (s : State) (p : Ports) (rest : List Ports) :
    (s.sampled p rest).params =
      s.params := rfl
@[simp] theorem sampled_ports (s : State) (p : Ports) (rest : List Ports) :
    (s.sampled p rest).ports =
      p := rfl
@[simp] theorem sampled_pending (s : State) (p : Ports) (rest : List Ports) :
    (s.sampled p rest).pending =
      rest := rfl
@[simp] theorem sampled_edge (s : State) (p : Ports) (rest : List Ports) :
    (s.sampled p rest).edge =
      s.edge + 1 := rfl

@[simp] theorem withRegs_self (s : State) : s.withRegs s.regs = s := rfl

@[simp] theorem withRegs_withRegs (s : State) (r r' : Regs) : (s.withRegs r).withRegs r' = s.withRegs r' := rfl

/-- RESET's values are those of the reset table (R97, R111). -/
theorem resetRegs_eq : resetRegs = Regs.reset := rfl

@[simp] theorem filterStep_filt (q : Ports) (r : Regs) :
    (filterStep q r).filt =
      r.filt - (r.filt >>> 4) + q.raw := rfl
@[simp] theorem filterStep_temperature (q : Ports) (r : Regs) :
    (filterStep q r).temperature =
      r.temperature := rfl
@[simp] theorem filterStep_secDiv (q : Ports) (r : Regs) : (filterStep q r).secDiv = r.secDiv := rfl
@[simp] theorem filterStep_secTick (q : Ports) (r : Regs) : (filterStep q r).secTick = r.secTick := rfl
@[simp] theorem filterStep_outputCounter (q : Ports) (r : Regs) :
    (filterStep q r).outputCounter =
      r.outputCounter := rfl
@[simp] theorem filterStep_o (q : Ports) (r : Regs) : (filterStep q r).o = r.o := rfl
@[simp] theorem filterStep_heat (q : Ports) (r : Regs) : (filterStep q r).heat = r.heat := rfl
@[simp] theorem filterStep_cool (q : Ports) (r : Regs) : (filterStep q r).cool = r.cool := rfl
@[simp] theorem filterStep_buzzer (q : Ports) (r : Regs) : (filterStep q r).buzzer = r.buzzer := rfl
@[simp] theorem filterStep_pauseInd (q : Ports) (r : Regs) : (filterStep q r).pauseInd = r.pauseInd := rfl
@[simp] theorem filterStep_pumpOn (q : Ports) (r : Regs) : (filterStep q r).pumpOn = r.pumpOn := rfl
@[simp] theorem filterStep_btnHist (q : Ports) (r : Regs) : (filterStep q r).btnHist = r.btnHist := rfl

@[simp] theorem secDivStep_filt (r : Regs) : (secDivStep r).filt = r.filt := rfl
@[simp] theorem secDivStep_temperature (r : Regs) : (secDivStep r).temperature = r.temperature := rfl
@[simp] theorem secDivStep_secDiv (r : Regs) :
    (secDivStep r).secDiv =
      BitVec.ofNat 4 ((r.secDiv.toNat + 1) % 16) := rfl
@[simp] theorem secDivStep_secTick (r : Regs) : (secDivStep r).secTick = r.secTick := rfl
@[simp] theorem secDivStep_outputCounter (r : Regs) : (secDivStep r).outputCounter = r.outputCounter := rfl
@[simp] theorem secDivStep_o (r : Regs) : (secDivStep r).o = r.o := rfl
@[simp] theorem secDivStep_heat (r : Regs) : (secDivStep r).heat = r.heat := rfl
@[simp] theorem secDivStep_cool (r : Regs) : (secDivStep r).cool = r.cool := rfl
@[simp] theorem secDivStep_buzzer (r : Regs) : (secDivStep r).buzzer = r.buzzer := rfl
@[simp] theorem secDivStep_pauseInd (r : Regs) : (secDivStep r).pauseInd = r.pauseInd := rfl
@[simp] theorem secDivStep_pumpOn (r : Regs) : (secDivStep r).pumpOn = r.pumpOn := rfl
@[simp] theorem secDivStep_btnHist (r : Regs) : (secDivStep r).btnHist = r.btnHist := rfl

@[simp] theorem btnSample_filt (q : Ports) (r : Regs) : (btnSample q r).filt = r.filt := rfl
@[simp] theorem btnSample_temperature (q : Ports) (r : Regs) :
    (btnSample q r).temperature =
      r.temperature := rfl
@[simp] theorem btnSample_secDiv (q : Ports) (r : Regs) : (btnSample q r).secDiv = r.secDiv := rfl
@[simp] theorem btnSample_secTick (q : Ports) (r : Regs) : (btnSample q r).secTick = r.secTick := rfl
@[simp] theorem btnSample_outputCounter (q : Ports) (r : Regs) :
    (btnSample q r).outputCounter =
      r.outputCounter := rfl
@[simp] theorem btnSample_o (q : Ports) (r : Regs) : (btnSample q r).o = r.o := rfl
@[simp] theorem btnSample_heat (q : Ports) (r : Regs) : (btnSample q r).heat = r.heat := rfl
@[simp] theorem btnSample_cool (q : Ports) (r : Regs) : (btnSample q r).cool = r.cool := rfl
@[simp] theorem btnSample_buzzer (q : Ports) (r : Regs) : (btnSample q r).buzzer = r.buzzer := rfl
@[simp] theorem btnSample_pauseInd (q : Ports) (r : Regs) : (btnSample q r).pauseInd = r.pauseInd := rfl
@[simp] theorem btnSample_pumpOn (q : Ports) (r : Regs) : (btnSample q r).pumpOn = r.pumpOn := rfl
@[simp] theorem btnSample_btnHist (q : Ports) (r : Regs) :
    (btnSample q r).btnHist =
      ((r.btnHist <<< 4) &&& 0xF0) ||| q.btnIn.setWidth 8 := rfl

@[simp] theorem pwmStep_filt (q : Ports) (r : Regs) : (pwmStep q r).filt = r.filt := by cases r; rfl
@[simp] theorem pwmStep_temperature (q : Ports) (r : Regs) :
    (pwmStep q r).temperature =
      r.temperature := by cases r; rfl
@[simp] theorem pwmStep_secDiv (q : Ports) (r : Regs) : (pwmStep q r).secDiv = r.secDiv := by cases r; rfl
@[simp] theorem pwmStep_secTick (q : Ports) (r : Regs) : (pwmStep q r).secTick = r.secTick := by cases r; rfl
@[simp] theorem pwmStep_outputCounter (q : Ports) (r : Regs) :
    (pwmStep q r).outputCounter =
      BitVec.ofNat 7 ((r.outputCounter.toNat + 1) % 100) := by cases r; rfl
@[simp] theorem pwmStep_o (q : Ports) (r : Regs) :
    (pwmStep q r).o =
      (if r.outputCounter = 0 then q.output else r.o) := by cases r; rfl
@[simp] theorem pwmStep_heat (q : Ports) (r : Regs) :
    (pwmStep q r).heat =
      (notForcedOff q && decide ((if r.outputCounter = 0 then q.output else r.o).toNat < 100) &&
        decide (r.outputCounter.toNat < (if r.outputCounter = 0 then q.output else r.o).toNat)) := by cases r; rfl
@[simp] theorem pwmStep_cool (q : Ports) (r : Regs) :
    (pwmStep q r).cool =
      (notForcedOff q && decide (r.outputCounter.toNat + 100 < (if r.outputCounter = 0 then q.output else r.o).toNat)) := by cases r; rfl
@[simp] theorem pwmStep_buzzer (q : Ports) (r : Regs) :
    (pwmStep q r).buzzer =
      (q.alarm && decide (75 ≤ r.outputCounter.toNat)) := by cases r; rfl
@[simp] theorem pwmStep_pauseInd (q : Ports) (r : Regs) :
    (pwmStep q r).pauseInd =
      (pausedNotOff q && decide (r.outputCounter.toNat % 2 = 0)) := by cases r; rfl
@[simp] theorem pwmStep_pumpOn (q : Ports) (r : Regs) :
    (pwmStep q r).pumpOn =
      (q.pump && notForcedOff q) := by cases r; rfl
@[simp] theorem pwmStep_btnHist (q : Ports) (r : Regs) : (pwmStep q r).btnHist = r.btnHist := by cases r; rfl

end Sys2Proof.Machine
end

