-- ==== Sys2Proof/Laws/Ops.lean ====
section
/-! SUPPORT. What the shared operations can do, said once: the table read, the commit, a conversion and
a fast tick's half. -/

namespace Sys2Proof.Machine

/-- An admitted parameter set has the 33 entries of R33. -/
theorem wf_table {p : Params} (h : p.wf = true) : p.calTable.length = 33 := by
  simp only [Params.wf, Bool.and_eq_true, decide_eq_true_eq] at h
  exact h.2

/-- An admitted `RAW_WIDTH` lies in 1..12 (R6). -/
theorem wf_rawWidth {p : Params} (h : p.wf = true) : 1 ≤ p.rawWidth ∧ p.rawWidth ≤ 12 := by
  simp only [Params.wf, rawWidthOk, Bool.and_eq_true, decide_eq_true_eq] at h
  have h₁ : p.rawWidth + 4 ≤ 16 := h.1.2
  exact ⟨h.1.1, by omega⟩

/-- A read inside the table answers the entry. -/
theorem calRead_of_lt {m : Memory} {i : Nat} (h : i < m.length) : calRead m i = .ok m[i] := by
  simp [calRead, h]

/-- A read outside the table faults with the index. -/
theorem calRead_of_ge {m : Memory} {i : Nat} (h : m.length ≤ i) :
    calRead m i = .error (.calIndexOutOfRange i) := by
  simp [calRead, h]

/-- Committing answers a next state exactly when the working copy came out well. -/
theorem commit_next {s t : State} {x : Except Fault Regs} :
    commit s x = .next t ↔ ∃ r, x = .ok r ∧ t = s.withRegs r := by
  cases x with
  | ok r => simp [commit, eq_comm]
  | error f => simp [commit]

/-- With 33 entries both reads of a conversion answer, since `b + 1` is at most 32 (R35). -/
theorem calPair_ok {m : Memory} (h : m.length = 33) (b : BitVec Config.indexBits) :
    ∃ lo hi, m[b.toNat]? = some lo ∧ m[b.toNat + 1]? = some hi ∧ calPair m b = .ok (lo, hi) := by
  have hb : b.toNat < 32 := b.isLt
  have h0 : b.toNat < m.length := by omega
  have h1 : b.toNat + 1 < m.length := by omega
  exact ⟨m[b.toNat], m[b.toNat + 1], by simp [h0], by simp [h1],
    by simp [calPair, calRead_of_lt h0, calRead_of_lt h1]⟩

/-- Everything a conversion pair that answers says. -/
theorem calPair_eq_ok {m : Memory} {b : BitVec Config.indexBits} {x : Word × Word}
    (h : calPair m b = .ok x) : m[b.toNat]? = some x.1 ∧ m[b.toNat + 1]? = some x.2 := by
  unfold calPair calRead at h
  split at h
  · cases h
  · rename_i lo hlo
    split at h
    · cases h
    · rename_i hi hhi
      cases h
      split at hlo <;> split at hhi <;> simp_all

/-- Everything the ACQ half of a fast tick can do (R56, R57, R60): the filter and the divider always,
`sec_tick` as due, and the temperature a converted value or held. -/
theorem acqStep_cases {m : Memory} {q : Ports} {r r' : Regs} (h : acqStep m q r = .ok r') :
    (convertDue (secDivStep r) = false ∧
      r' = { secDivStep (filterStep q r) with secTick := false }) ∨
    (convertDue (secDivStep r) = true ∧ ∃ lo hi,
      calPair m (splitIndex (filterStep q r).filt) = .ok (lo, hi) ∧
      r' = { secDivStep (filterStep q r) with
        temperature := convertedValue q (filterStep q r).filt lo hi, secTick := true }) := by
  unfold acqStep convert at h
  have hd : convertDue (secDivStep (filterStep q r)) = convertDue (secDivStep r) := rfl
  rw [hd] at h
  cases due : convertDue (secDivStep r) with
  | false => simp [due] at h; exact .inl ⟨rfl, h.symm⟩
  | true =>
    simp only [due, if_true] at h
    split at h
    · cases h
    · rename_i lo hi hp
      cases h
      exact .inr ⟨rfl, lo, hi, hp, rfl⟩

/-- On a tick that does not convert, the ACQ half answers whatever the table is. -/
theorem acqStep_not_due {m : Memory} {q : Ports} {r : Regs} (h : convertDue (secDivStep r) = false) :
    acqStep m q r = .ok { secDivStep (filterStep q r) with secTick := false } := by
  have hd : convertDue (secDivStep (filterStep q r)) = convertDue (secDivStep r) := rfl
  simp [acqStep, convert, hd, h]

/-- With 33 entries the ACQ half answers. -/
theorem acqStep_ok {m : Memory} (h : m.length = 33) (q : Ports) (r : Regs) :
    ∃ r', acqStep m q r = .ok r' := by
  obtain ⟨lo, hi, -, -, hp⟩ := calPair_ok h (splitIndex (secDivStep (filterStep q r)).filt)
  unfold acqStep convert
  split
  · rw [hp]; exact ⟨_, rfl⟩
  · exact ⟨_, rfl⟩

/-- A fast half that answers is PWM_STEP after an ACQ half that answers (R95). -/
theorem fastHalf_eq_ok {m : Memory} {q : Ports} {r r' : Regs} :
    fastHalf m q r = .ok r' ↔ ∃ r₁, acqStep m q r = .ok r₁ ∧ r' = pwmStep q r₁ := by
  unfold fastHalf
  cases acqStep m q r with
  | ok r₁ => simp [eq_comm]
  | error f => simp

/-- With 33 entries the fast half answers. -/
theorem fastHalf_ok {m : Memory} (h : m.length = 33) (q : Ports) (r : Regs) :
    ∃ r', fastHalf m q r = .ok r' := by
  obtain ⟨r₁, h₁⟩ := acqStep_ok h q r
  exact ⟨_, fastHalf_eq_ok.2 ⟨r₁, h₁, rfl⟩⟩

end Sys2Proof.Machine
end

