-- ==== Sys2Proof/Laws/Exec.lean ====
section
/-! SUPPORT. What a command and a step can do, said once. -/

namespace Sys2Proof.Machine

/-- What each command writes on a working copy, or the fault it stops with. -/
def regsAfter (i : Instr) (s : State) : Except Fault Regs :=
  match i with
  | .nop => .ok s.regs
  | .menuTick => .ok (btnSample s.ports s.regs)
  | .fastTick => fastHalf s.params.calTable s.ports s.regs
  | .fastMenuTick => fastHalf s.params.calTable s.ports (btnSample s.ports s.regs)
  | .reset => .ok Regs.reset

/-- Every command is the commit of its registers: no other part of State changes. -/
theorem exec_eq_commit (i : Instr) (s : State) : exec i s = commit s (regsAfter i s) := by
  cases i <;> rfl

/-- Everything a command that answers a next state can do. -/
theorem exec_cases {i : Instr} {s t : State} (h : exec i s = .next t) :
    ∃ r, regsAfter i s = .ok r ∧ t = s.withRegs r := commit_next.1 (exec_eq_commit i s ▸ h)

/-- A command that answers changes the registers only. -/
theorem exec_frame {i : Instr} {s t : State} (h : exec i s = .next t) :
    t.params = s.params ∧ t.ports = s.ports ∧ t.pending = s.pending ∧ t.edge = s.edge := by
  obtain ⟨r, -, rfl⟩ := exec_cases h
  exact ⟨rfl, rfl, rfl, rfl⟩

/-- A step whose edge is described samples it. -/
theorem sample_of_cons {s : State} {p : Ports} {rest : List Ports} (h : s.pending = p :: rest) :
    sample s = s.sampled p rest := by
  simp [sample, h]

/-- A step whose edge is not described samples the free values. -/
theorem sample_of_nil {s : State} (h : s.pending = []) :
    sample s = s.sampled (freePorts s.params.rawWidth s.edge) [] := by
  simp [sample, h]

/-- Sampling writes no register and no parameter. -/
@[simp] theorem sample_regs (s : State) : (sample s).regs = s.regs := by
  unfold sample; split <;> rfl

@[simp] theorem sample_params (s : State) : (sample s).params = s.params := by
  unfold sample; split <;> rfl

@[simp] theorem sample_pending (s : State) : (sample s).pending = s.pending.tail := by
  unfold sample; split <;> simp_all

@[simp] theorem sample_edge (s : State) : (sample s).edge = s.edge + 1 := by
  unfold sample; split <;> rfl

/-- A port fits exactly when its `raw` is below `2^RAW_WIDTH` (R106). -/
theorem fits_iff {w : Nat} {p : Ports} : p.fits w = true ↔ p.raw.toNat < 2 ^ w := by
  simp only [Ports.fits, Bool.or_eq_true, beq_iff_eq, decide_eq_true_eq]
  constructor
  · rintro (h | h)
    · simp [h]
    · exact h
  · exact .inr

/-- The free values fit: a wider value cannot be on the port. -/
theorem freePorts_fits (w n : Nat) : (freePorts w n).fits w = true := by
  rw [fits_iff]
  simp only [freePorts, BitVec.toNat_ofNat]
  exact Nat.lt_of_le_of_lt (Nat.mod_le _ _) (Nat.mod_lt _ (Nat.two_pow_pos w))

/-- Everything a step that answers a next state can do: its sampled ports fit and the command they
select answers it. -/
theorem step_cases {s t : State} (h : step s = .next t) :
    (sample s).ports.fits s.params.rawWidth = true ∧
      exec (decode (sample s).ports.cmd) (sample s) = .next t := by
  unfold step runSampled at h
  split at h
  · rename_i hf; exact ⟨by simpa using hf, h⟩
  · cases h

/-- A step whose sampled ports fit is its command. -/
theorem step_of_fits {s : State} (h : (sample s).ports.fits s.params.rawWidth = true) :
    step s = exec (decode (sample s).ports.cmd) (sample s) := by
  simp [step, runSampled, h]

/-- The free launch parameters are an admitted set, whatever they are (R6). -/
theorem launchParams_wf : Config.launchParams.wf = true := by
  have h := Config.rawWidthLessOne.isLt
  have h₂ : rawWidthOk (Config.rawWidthLessOne.val + 1) = true := by
    simp [rawWidthOk, Config.filterShift, Config.filtWidth]
    omega
  simp [Params.wf, Config.launchParams, h₂]

/-- The one memory has its form at reset. -/
theorem reset_memory_wf : Memory.wf State.reset.params.calTable = true := by
  simp [Memory.wf, State.reset, Config.launchParams]

/-- No step changes the one memory, so every step keeps its form (R40). -/
theorem step_memory {s t : State} (h : step s = .next t) : t.params.calTable = s.params.calTable := by
  have := (exec_frame (step_cases h).2).1
  rw [this, sample_params]

end Sys2Proof.Machine
end

