-- ==== Sys2Proof/Laws/Fast.lean ====
section
/-! SUPPORT. Everything a fast tick can do, register by register, said once: what later proofs about
FAST_TICK and FAST_MENU_TICK cite instead of unfolding the meanings. -/

namespace Sys2Proof.Machine

/-- The conversion is due exactly when the divider stood at 15 before the tick (R57). -/
theorem convertDue_iff (r : Regs) : convertDue (secDivStep r) = true ↔ r.secDiv.toNat = 15 := by
  have := r.secDiv.isLt
  simp only [convertDue, secDivStep_secDiv, beq_iff_eq]
  rw [← BitVec.toNat_inj]
  simp
  omega

theorem not_convertDue_iff (r : Regs) :
    convertDue (secDivStep r) = false ↔ r.secDiv.toNat ≠ 15 := by
  rw [ne_eq, ← convertDue_iff r]; simp

/-- SPLIT's index as arithmetic (R59). -/
theorem splitIndex_toNat (f : Word) : (splitIndex f).toNat = f.toNat / 1024 % 32 := by
  simp [splitIndex, Nat.shiftRight_eq_div_pow, Config.indexBits, Config.filterShift, Config.fracBits]

/-- SPLIT's fraction as arithmetic (R59). -/
theorem splitFraction_toNat (f : Word) : (splitFraction f).toNat = f.toNat / 16 % 64 := by
  simp [splitFraction, Nat.shiftRight_eq_div_pow, Config.filterShift, Config.fracBits]

/-- A fast tick that answers is PWM_STEP after an ACQ half, on the registers or, for FAST_MENU_TICK, on
the registers after BTN_SAMPLE. -/
theorem fast_cases {i : Instr} {s t : State} (hi : IsFastCommand i) (h : exec i s = .next t) :
    ∃ r₁ r₂, acqStep s.params.calTable s.ports r₁ = .ok r₂ ∧ t = s.withRegs (pwmStep s.ports r₂) ∧
      ((i = .fastTick ∧ r₁ = s.regs) ∨ (i = .fastMenuTick ∧ r₁ = btnSample s.ports s.regs)) := by
  obtain ⟨r, hr, rfl⟩ := exec_cases h
  rcases hi with rfl | rfl
  · obtain ⟨r₂, h₂, rfl⟩ := fastHalf_eq_ok.1 hr
    exact ⟨_, _, h₂, rfl, .inl ⟨rfl, rfl⟩⟩
  · obtain ⟨r₂, h₂, rfl⟩ := fastHalf_eq_ok.1 hr
    exact ⟨_, _, h₂, rfl, .inr ⟨rfl, rfl⟩⟩

/-- Everything that holds of the state a fast tick answers. -/
structure FastFacts (i : Instr) (s t : State) : Prop where
  frame : t = s.withRegs t.regs
  filt : t.regs.filt = s.regs.filt - (s.regs.filt >>> 4) + s.ports.raw
  secDiv : t.regs.secDiv = BitVec.ofNat 4 ((s.regs.secDiv.toNat + 1) % 16)
  secTick : t.regs.secTick = decide (s.regs.secDiv.toNat = 15)
  held : s.regs.secDiv.toNat ≠ 15 → t.regs.temperature = s.regs.temperature
  converted : s.regs.secDiv.toNat = 15 → ∃ lo hi,
    s.params.calTable[(splitIndex t.regs.filt).toNat]? = some lo ∧
    s.params.calTable[(splitIndex t.regs.filt).toNat + 1]? = some hi ∧
    t.regs.temperature = convertedValue s.ports t.regs.filt lo hi
  o : t.regs.o = if s.regs.outputCounter = 0 then s.ports.output else s.regs.o
  heat : t.regs.heat = (notForcedOff s.ports && decide (t.regs.o.toNat < 100) &&
    decide (s.regs.outputCounter.toNat < t.regs.o.toNat))
  cool : t.regs.cool = (notForcedOff s.ports && decide (s.regs.outputCounter.toNat + 100 < t.regs.o.toNat))
  buzzer : t.regs.buzzer = (s.ports.alarm && decide (75 ≤ s.regs.outputCounter.toNat))
  pauseInd : t.regs.pauseInd = (pausedNotOff s.ports && decide (s.regs.outputCounter.toNat % 2 = 0))
  pumpOn : t.regs.pumpOn = (s.ports.pump && notForcedOff s.ports)
  outputCounter : t.regs.outputCounter = BitVec.ofNat 7 ((s.regs.outputCounter.toNat + 1) % 100)
  btnHist : t.regs.btnHist =
    if i = .fastTick then s.regs.btnHist else (btnSample s.ports s.regs).btnHist

/-- A fast tick that answers has all of FastFacts. -/
theorem fast_facts {i : Instr} {s t : State} (hi : IsFastCommand i) (h : exec i s = .next t) :
    FastFacts i s t := by
  obtain ⟨r₁, r₂, ha, rfl, hr⟩ := fast_cases hi h
  have hreg : r₁.filt = s.regs.filt ∧ r₁.secDiv = s.regs.secDiv ∧
      r₁.temperature = s.regs.temperature ∧ r₁.outputCounter = s.regs.outputCounter ∧
      r₁.o = s.regs.o := by
    rcases hr with ⟨-, rfl⟩ | ⟨-, rfl⟩ <;> exact ⟨rfl, rfl, rfl, rfl, rfl⟩
  obtain ⟨e1, e2, e3, e4, e5⟩ := hreg
  have hb : r₁.btnHist = if i = .fastTick then s.regs.btnHist else (btnSample s.ports s.regs).btnHist := by
    rcases hr with ⟨rfl, rfl⟩ | ⟨rfl, rfl⟩ <;> simp
  rcases acqStep_cases ha with ⟨hd, rfl⟩ | ⟨hd, lo, hi', hp, rfl⟩
  · have hd' := (not_convertDue_iff _).1 hd
    rw [e2] at hd'
    constructor <;> simp [e1, e2, e3, e4, e5, hb, hd']
  · have hd' := (convertDue_iff _).1 hd
    rw [e2] at hd'
    have hpp := calPair_eq_ok hp
    simp only [filterStep_filt, e1] at hpp
    constructor <;> simp [e1, e2, e4, e5, hb, hd']
    exact ⟨lo, hpp.1, hi', hpp.2, rfl⟩

end Sys2Proof.Machine
end

