-- ==== Sys2Proof/Laws/PerInstr.lean ====
section
/-! SUPPORT. Families of statements over the commands as syntax: one lemma per constructor. -/

namespace Sys2Proof.Laws.EncodedRow

/-- The command is well formed, its row of R44's table matches its own word, and the match value has
no bit outside the mask. -/
def Statement (i : Instr) : Prop :=
  i.wf = true ∧ rowMatches i (encode i) = true ∧ encode i &&& encodeMask i = encode i

theorem nop : Statement .nop := ⟨rfl, rfl, rfl⟩
theorem menuTick : Statement .menuTick := ⟨rfl, rfl, rfl⟩
theorem fastTick : Statement .fastTick := ⟨rfl, rfl, rfl⟩
theorem fastMenuTick : Statement .fastMenuTick := ⟨rfl, rfl, rfl⟩
theorem reset : Statement .reset := ⟨rfl, rfl, rfl⟩

end Sys2Proof.Laws.EncodedRow
end

