-- ==== Sys2Proof/Laws/Run.lean ====
section
/-! SUPPORT. Runs, with the induction over them packaged once. -/

namespace Sys2Proof

open Machine

/-- A run and one step more. -/
theorem core_run_snoc (M : Host.Core) {n : Nat} : ∀ {s u t : M.State},
    M.run n s = .next u → M.step u = .next t → M.run (n + 1) s = .next t := by
  induction n with
  | zero => intro s u t h hs; cases h; simp [Host.Core.run, hs]
  | succ n ih =>
    intro s u t h hs
    rw [Host.Core.run] at h ⊢
    cases hst : M.step s with
    | next s' => rw [hst] at h; exact ih h hs
    | fault r => rw [hst] at h; cases h
    | refused r => rw [hst] at h; cases h

theorem runsTo_zero (s : State) : RunsTo 0 s s := rfl

theorem runsTo_snoc {n : Nat} {s u t : State} (h : RunsTo n s u) (hs : step u = .next t) :
    RunsTo (n + 1) s t := core_run_snoc core h hs

/-- What holds at the start and is carried by each step, with the parameters kept and one edge taken,
holds along the run. -/
theorem run_induction (Q : Nat → State → Prop) {s : State} {n : Nat} (h0 : Q 0 s)
    (hs : ∀ k u, k < n → Q k u → u.params = s.params → u.pending = s.pending.drop k →
      ∃ t, step u = .next t ∧ t.params = u.params ∧ t.pending = u.pending.tail ∧ Q (k + 1) t) :
    ∀ k, k ≤ n → ∃ t, RunsTo k s t ∧ Q k t ∧ t.params = s.params ∧ t.pending = s.pending.drop k := by
  intro k
  induction k with
  | zero => intro _; exact ⟨s, runsTo_zero s, h0, rfl, rfl⟩
  | succ k ih =>
    intro hk
    obtain ⟨u, hu, hq, hp, hpe⟩ := ih (by omega)
    obtain ⟨t, ht, a, b, c⟩ := hs k u (by omega) hq hp hpe
    exact ⟨t, runsTo_snoc hu ht, c, a.trans hp, by rw [b, hpe]; simp⟩

/-- The edge `k` of the start is the next edge after `k` steps. -/
theorem edgeHolds_after {s u : State} {k : Nat} {p : Ports} (h : EdgeHolds s k p)
    (a : u.params = s.params) (b : u.pending = s.pending.drop k) : EdgeHolds u 0 p := by
  refine ⟨?_, by rw [a]; exact h.2⟩
  rw [b]; simpa using h.1

end Sys2Proof
end

