-- ==== Sys2Proof/Tests/Slice0.lean ====
section
/-! SUPPORT. The model's own tests: what each check refuses, each command's words written out from
spec/30_encoding.md R44, the vectors of spec/95_test_vectors.md (their ids are in the names), and a
witness for the hypotheses of each obligation that has any. Every expected value is the spec's. -/

namespace Sys2Proof.Tests

open Sys2Proof Sys2Proof.Machine

/-! ### A small state -/

/-- The example table of spec/95_test_vectors.md section 0: `1550 - 50k`. -/
def exTable : List Word := (List.range 33).map fun k => BitVec.ofInt 16 (1550 - 50 * k)

/-- The parameters the vectors use: `RAW_WIDTH = 11`. -/
def exParams : Params :=
  { rawWidth := 11, calTable := exTable, pumpIdleMode := .driveLow, tempScale := .celsius }

/-- A state with the registers `r`, the ports `q` at this edge, and coming values `l`. -/
def st (r : Regs) (q : Ports) (l : List Ports := []) : State :=
  { regs := r, params := exParams, ports := q, pending := l, edge := 0 }

/-- The registers after a command, if it answers a next state. -/
def after (i : Instr) (s : State) : Option Regs :=
  match exec i s with
  | .next t => some t.regs
  | .fault _ => none
  | .refused _ => none

/-- The refusal or fault a step stops with. -/
def stopOf (x : Host.Outcome State Fault Refusal) : Option (Fault ⊕ Refusal) :=
  match x with
  | .next _ => none
  | .fault f => some (.inl f)
  | .refused r => some (.inr r)

/-! ### WellFormed: an ill-formed term for each check -/

/-- A request that breaks no constraint of R6. -/
def okRequest : ParamRequest :=
  { rawWidth := 11, calTable := List.replicate 33 0, pumpIdleMode := "FLOAT", tempScale := .celsius }

theorem test_wf_ok : okRequest.wf = true ∧ exParams.wf = true := by decide
theorem test_wf_rawWidth_zero : ({ okRequest with rawWidth := 0 } : ParamRequest).wf = false := by decide
theorem test_wf_rawWidth_13 : ({ okRequest with rawWidth := 13 } : ParamRequest).wf = false := by decide
theorem test_wf_table_32 :
    ({ okRequest with calTable := List.replicate 32 0 } : ParamRequest).wf = false := by decide
theorem test_wf_entry_above :
    ({ okRequest with calTable := 32768 :: List.replicate 32 0 } : ParamRequest).wf = false := by decide
theorem test_wf_entry_below :
    ({ okRequest with calTable := -32769 :: List.replicate 32 0 } : ParamRequest).wf = false := by decide
theorem test_wf_pump_mode : ({ okRequest with pumpIdleMode := "HIGH" } : ParamRequest).wf = false := by decide
theorem test_wf_params_table : ({ exParams with calTable := [] } : Params).wf = false := by decide
theorem test_fits_raw_2048 : ({ Ports.zero with raw := 2048 } : Ports).fits 11 = false := by decide
theorem test_fits_raw_2047 : ({ Ports.zero with raw := 2047 } : Ports).fits 11 = true := by decide
theorem test_launch_refuses_13 :
    stopOf (launch { okRequest with rawWidth := 13 } []) = some (.inr (.badRawWidth 13)) := by decide
theorem test_launch_refuses_32_entries :
    stopOf (launch { okRequest with calTable := List.replicate 32 0 } []) =
      some (.inr (.badTableLength 32)) := by decide
theorem test_launch_refuses_entry :
    stopOf (launch { okRequest with calTable := 32768 :: List.replicate 32 0 } []) =
      some (.inr .badTableEntry) := by decide
theorem test_launch_refuses_pump_mode :
    stopOf (launch { okRequest with pumpIdleMode := "HIGH" } []) = some (.inr .badPumpIdleMode) := by decide

/-! ### Decode: rst, fast_tick, menu_tick written out from R43 and R44 -/

theorem test_decode_nop : decode (0#1 ++ 0#1 ++ 0#1) = .nop := by decide
theorem test_decode_menuTick : decode (0#1 ++ 0#1 ++ 1#1) = .menuTick := by decide
theorem test_decode_fastTick : decode (0#1 ++ 1#1 ++ 0#1) = .fastTick := by decide
theorem test_decode_fastMenuTick : decode (0#1 ++ 1#1 ++ 1#1) = .fastMenuTick := by decide
theorem test_decode_reset : decode (1#1 ++ 0#1 ++ 0#1) = .reset ∧ decode (1#1 ++ 1#1 ++ 1#1) = .reset := by
  decide
theorem test_decode_too_wide : decodeTableWord 8 8 = none ∧ decodeTableWord 8 0b110 = some .reset := by decide
theorem test_decode_bytes :
    (decodeBytes [2#8, 7#8]).map (·.2) = some [7#8] ∧ (decodeBytes []).isNone = true := by decide

/-- From reset, the fetched word runs as the first step (the registers, for each command). -/
theorem test_first_step_after_reset :
    (match step (State.reset.withFetchWord 8 0b011) with
      | .next t => some (t.regs.secDiv, t.regs.outputCounter)
      | .fault _ => none
      | .refused _ => none) = some (1, 1) := by decide

/-! ### ACQ vectors (spec/95_test_vectors.md 2.1 to 2.4) -/

theorem test_filter_V1_V13 :
    ([(0, 1000, 1000), (1000, 1000, 1938), (16000, 1000, 16000), (16015, 1000, 16015),
      (16016, 1000, 16015), (15, 0, 15), (16, 0, 15), (30000, 0, 28125), (0, 2047, 2047),
      (32767, 2047, 32767), (32752, 2047, 32752), (65535, 4095, 65535),
      (65535, 0, 61440)] : List (Word × Word × Word)).all
      (fun x => (filterStep { Ports.zero with raw := x.2.1 } { Regs.reset with filt := x.1 }).filt == x.2.2)
      = true := by decide

theorem test_sec_div_V14_V19 :
    (after .fastTick (st { Regs.reset with secDiv := 0 } Ports.zero)).map (fun r => (r.secDiv, r.secTick))
      = some (1, false) ∧
    (after .fastTick (st { Regs.reset with secDiv := 14 } Ports.zero)).map (fun r => (r.secDiv, r.secTick))
      = some (15, false) ∧
    (after .fastMenuTick (st { Regs.reset with secDiv := 15 } Ports.zero)).map (fun r => (r.secDiv, r.secTick))
      = some (0, true) ∧
    (after .menuTick (st { Regs.reset with secDiv := 15 } Ports.zero)).map (fun r => r.secDiv) = some 15 ∧
    (after .nop (st { Regs.reset with secDiv := 15 } Ports.zero)).map (fun r => r.secDiv) = some 15 := by
  decide

/-- `lo`, `hi`, `a`, the accumulator and the result, as V20 to V38 give them. -/
theorem test_interp_V20_V38 :
    ([(100, 90, 0, 6400, 100), (100, 90, 1, 6390, 99), (100, 90, 32, 6080, 95), (100, 90, 63, 5770, 90),
      (90, 100, 1, 5770, 90), (90, 100, 63, 6390, 99), (-5, -6, 1, -321, -6), (0, -50, 1, -50, -1),
      (0, -50, 17, -850, -14), (0, -50, 63, -3150, -50), (1, 0, 63, 1, 0), (0, 1, 63, 63, 0),
      (-1, 0, 63, -1, -1), (32767, 32767, 63, 2097088, 32767), (-32768, -32768, 63, -2097152, -32768),
      (-32768, 32767, 63, 2031553, 31743), (32767, -32768, 63, -2031617, -31745),
      (800, 750, 40, 49200, 768), (1550, 1500, 63, 96050, 1500)] : List (Int × Int × Nat × Int × Int)).all
      (fun x => (interpAcc 0 (BitVec.ofInt 16 x.1) (BitVec.ofInt 16 x.2.1) (BitVec.ofNat 6 x.2.2.1)).toInt
          == x.2.2.2.1 &&
        (interp (BitVec.ofInt 16 x.1) (BitVec.ofInt 16 x.2.1) (BitVec.ofNat 6 x.2.2.1)).toInt
          == x.2.2.2.2) = true := by decide +kernel

/-- The filter value after FILTER_STEP, `tc` and the temperature, with the example table. -/
theorem test_convert_V39_V50 :
    ([(0, 0, 1550), (16000, 0, 768), (16000, 5, 773), (16015, 0, 768), (10240, -3, 1047), (1008, 0, 1500),
      (1024, 0, 1500), (32025, 0, -14), (32025, 5, -9), (32767, 0, -50), (65535, 0, -50),
      (32768, 0, 1550)] : List (Nat × Int × Int)).all
      (fun x =>
        match convert exTable { Ports.zero with tc := BitVec.ofInt 16 x.2.1 } true
            { Regs.reset with filt := BitVec.ofNat 16 x.1 } with
        | .ok r => r.temperature.toInt == x.2.2 && r.secTick
        | .error _ => false) = true := by decide +kernel

theorem test_split_V40 : splitFraction 16000 = 40 ∧ splitIndex 16000 = 15 := by decide

theorem test_convert_wraps_V51_V52 :
    (convertedValue { Ports.zero with tc := 100 } 0 32767 32767).toInt = -32669 ∧
    (convertedValue { Ports.zero with tc := -100 } 0 (-32768) (-32768)).toInt = 32668 := by decide +kernel

/-- A state of a block with the source's literal 32 entries, about to convert at `b = 31`. -/
def shortTableState : State :=
  { st { Regs.reset with filt := 31744, secDiv := 15 } { Ports.zero with raw := 1984 } with
    params := { exParams with calTable := exTable.take 32 } }

theorem test_short_table_V53 :
    stopOf (exec .fastTick shortTableState) = some (.inl (.calIndexOutOfRange 32)) := by decide

/-! ### PWM vectors (2.5): c, o, output, OFF, PAUSE, ALARM, PUMP, then o, heat, cool, buzzer, pause_ind,
pump_on, counter -/

/-- One row of the PWM vectors. -/
structure PwmRow where
  c : BitVec 7
  o : BitVec 8
  output : BitVec 8
  flags : Bool × Bool × Bool × Bool
  o' : BitVec 8
  outs : Bool × Bool × Bool × Bool × Bool
  c' : BitVec 7

/-- FAST_TICK gives what the row says. -/
def PwmRow.holds (x : PwmRow) : Bool :=
  (after .fastTick (st { Regs.reset with outputCounter := x.c, o := x.o }
    { Ports.zero with output := x.output, off := x.flags.1, pause := x.flags.2.1, alarm := x.flags.2.2.1,
                      pump := x.flags.2.2.2 })).map
      (fun r => (r.o, (r.heat, r.cool, r.buzzer, r.pauseInd, r.pumpOn), r.outputCounter))
    == some (x.o', x.outs, x.c')

theorem test_pwm_V54_V63 :
    ([⟨0, 30, 150, (false, false, false, false), 150, (false, true, false, false, false), 1⟩,
      ⟨1, 30, 150, (false, false, false, false), 30, (true, false, false, false, false), 2⟩,
      ⟨29, 30, 0, (false, false, false, false), 30, (true, false, false, false, false), 30⟩,
      ⟨30, 30, 0, (false, false, false, false), 30, (false, false, false, false, false), 31⟩,
      ⟨0, 0, 100, (false, false, false, false), 100, (false, false, false, false, false), 1⟩,
      ⟨49, 150, 0, (false, false, false, false), 150, (false, true, false, false, false), 50⟩,
      ⟨50, 150, 0, (false, false, false, false), 150, (false, false, false, false, false), 51⟩,
      ⟨99, 200, 0, (false, false, false, false), 200, (false, true, false, false, false), 0⟩,
      ⟨99, 99, 0, (false, false, false, false), 99, (false, false, false, false, false), 0⟩,
      ⟨98, 99, 0, (false, false, false, false), 99, (true, false, false, false, false), 99⟩] :
      List PwmRow).all PwmRow.holds = true := by decide

theorem test_pwm_V64_V75 :
    ([⟨10, 50, 0, (true, false, false, false), 50, (false, false, false, false, false), 11⟩,
      ⟨10, 50, 0, (false, true, false, false), 50, (false, false, false, true, false), 11⟩,
      ⟨11, 50, 0, (false, true, false, false), 50, (false, false, false, false, false), 12⟩,
      ⟨10, 50, 0, (true, true, false, false), 50, (false, false, false, false, false), 11⟩,
      ⟨74, 0, 0, (false, false, true, false), 0, (false, false, false, false, false), 75⟩,
      ⟨75, 0, 0, (false, false, true, false), 0, (false, false, true, false, false), 76⟩,
      ⟨99, 0, 0, (true, false, true, false), 0, (false, false, true, false, false), 0⟩,
      ⟨5, 0, 0, (false, false, false, true), 0, (false, false, false, false, true), 6⟩,
      ⟨5, 0, 0, (false, true, false, true), 0, (false, false, false, false, false), 6⟩,
      ⟨5, 0, 0, (true, false, false, true), 0, (false, false, false, false, false), 6⟩,
      ⟨0, 7, 230, (false, false, false, false), 230, (false, true, false, false, false), 1⟩,
      ⟨0, 7, 90, (true, false, false, false), 90, (false, false, false, false, false), 1⟩] :
      List PwmRow).all PwmRow.holds = true := by decide

/-! ### DEB vectors (2.6): history, sample, history after, classes P S U D, held_or_rel, ack, any -/

theorem test_deb_V87_V100 :
    ([(0x00, 0, 0x00, (0, 0, 0, 0), 0, false, false), (0x00, 2, 0x02, (0, 0, 1, 0), 0, false, true),
      (0x02, 2, 0x22, (0, 0, 3, 0), 2, false, true), (0x22, 0, 0x20, (0, 0, 2, 0), 2, true, true),
      (0x20, 0, 0x00, (0, 0, 0, 0), 0, false, false), (0x02, 0, 0x20, (0, 0, 2, 0), 2, true, true),
      (0x20, 2, 0x02, (0, 0, 1, 0), 0, false, true), (0x23, 1, 0x31, (0, 0, 2, 3), 3, false, true),
      (0x99, 8, 0x98, (3, 0, 0, 2), 9, false, true), (0x00, 9, 0x09, (1, 0, 0, 1), 0, false, true),
      (0x66, 0, 0x60, (0, 2, 2, 0), 6, true, true), (0xFF, 15, 0xFF, (3, 3, 3, 3), 15, false, true),
      (0xFF, 0, 0xF0, (2, 2, 2, 2), 15, true, true), (0x5A, 6, 0xA6, (2, 1, 3, 0), 10, false, true)] :
      List (BitVec 8 × Nibble × BitVec 8 × (BitVec 2 × BitVec 2 × BitVec 2 × BitVec 2) × Nibble × Bool × Bool)).all
      (fun x =>
        match exec .menuTick (st { Regs.reset with btnHist := x.1 } { Ports.zero with btnIn := x.2.1 }) with
        | .next t =>
          let u := outputs t
          u.btnHist == x.2.2.1 && (u.btnClass3, u.btnClass2, u.btnClass1, u.btnClass0) == x.2.2.2.1 &&
            u.heldOrRel == x.2.2.2.2.1 && u.ackEvent == x.2.2.2.2.2.1 && u.anyActive == x.2.2.2.2.2.2
        | .fault _ => false
        | .refused _ => false) = true := by decide

/-! ### Command vectors (2.7) -/

/-- A register set with every register away from its reset value. -/
def busyRegs : Regs :=
  { filt := 16000, temperature := 773, secDiv := 3, secTick := true, outputCounter := 50, o := 150,
    heat := true, cool := true, buzzer := true, pauseInd := true, pumpOn := true, btnHist := 0x5A }

theorem test_nop_V101_V109 : after .nop (st busyRegs Ports.zero) = some busyRegs := by decide
theorem test_menu_V102_V110 :
    after .menuTick (st Regs.reset { Ports.zero with btnIn := 0b1000 }) =
      some { Regs.reset with btnHist := 0x08 } ∧
    (after .menuTick (st busyRegs Ports.zero)).map (fun r => r.secTick) = some true := by decide
theorem test_fast_V103 :
    after .fastTick (st Regs.reset { Ports.zero with raw := 1000, output := 150 }) =
      some { Regs.reset with filt := 1000, secDiv := 1, o := 150, cool := true, outputCounter := 1 } := by
  decide
theorem test_fast_V111 :
    (after .fastTick (st { Regs.reset with secTick := true } Ports.zero)).map (fun r => (r.secTick, r.secDiv))
      = some (false, 1) := by decide
theorem test_fastMenu_V104 :
    after .fastMenuTick (st Regs.reset { Ports.zero with btnIn := 0b0001 }) =
      some { Regs.reset with secDiv := 1, outputCounter := 1, btnHist := 0x01 } := by decide
theorem test_reset_V105_V108 :
    ([(false, false), (false, true), (true, false), (true, true)] : List (Bool × Bool)).all
      (fun x =>
        match step (st busyRegs Ports.zero [{ Ports.zero with rst := true, fastTick := x.1, menuTick := x.2 }]) with
        | .next t => t.regs == Regs.reset
        | .fault _ => false
        | .refused _ => false) = true := by decide

/-- The pump pad and the trace expansion (R24, R54, R55). -/
theorem test_pump_pad :
    pumpPad .driveLow false = .drivenLow ∧ pumpPad .float false = .floating ∧ pumpPad .float true = .on := by
  decide
theorem test_trace_edges :
    traceEdges Ports.zero
      [{ command := .reset }, { command := .menuTick, times := 2, assign := { btn := some 2 } }, { command := .nop }] =
      [{ Ports.zero with rst := true }, { Ports.zero with menuTick := true, btnIn := 2 },
       { Ports.zero with menuTick := true, btnIn := 2 }, { Ports.zero with btnIn := 2 }] := by decide

/-! ### Witnesses: the hypotheses of each obligation can be met -/

/-- The ports of a fast tick with raw code 1000 and `output = 150`. -/
def fastPorts : Ports := { Ports.zero with fastTick := true, raw := 1000, output := 150 }

/-- The ports of a menu tick with the power button's sample `v`. -/
def menuPorts (v : Bool) : Ports :=
  { Ports.zero with menuTick := true, btnIn := if v then 0b1000 else 0 }

theorem exParams_wf : exParams.wf = true := by decide

/-- `n` or more equal fast edges meet FastEdges. -/
theorem fastEdges_replicate {n m : Nat} (h : n ≤ m) (p : Ports) (P : Ports → Prop) (r : Regs)
    (hf : p.isFast = true) (hfit : p.fits 11 = true) (hP : P p) :
    FastEdges (st r Ports.zero (List.replicate m p)) n P := by
  intro k hk
  exact ⟨p, ⟨by simp [st, show k < m by omega], hfit⟩, hf, hP⟩

theorem witness_StrobesSelectTheCommand :
    { Ports.zero with rst := true }.rst = true ∧
    ({ Ports.zero with fastTick := true, menuTick := true } : Ports).rst = false ∧
    (fastPorts.rst = false ∧ fastPorts.fastTick = true ∧ fastPorts.menuTick = false) ∧
    ((menuPorts true).rst = false ∧ (menuPorts true).fastTick = false ∧ (menuPorts true).menuTick = true) ∧
    (Ports.zero.rst = false ∧ Ports.zero.fastTick = false ∧ Ports.zero.menuTick = false) := by decide
theorem witness_DecodeEncodeAgree : Instr.reset.wf = true := by decide
theorem witness_StepRunsTheSampledCommand :
    ((st busyRegs Ports.zero [fastPorts]).pending = [fastPorts] ∧ fastPorts.fits exParams.rawWidth = true ∧
      decode fastPorts.cmd = .fastTick) ∧ (st busyRegs Ports.zero).pending = [] := by decide
theorem witness_TooWideRawIsRefused :
    2 ^ (st busyRegs Ports.zero [{ fastPorts with raw := 2048 }]).params.rawWidth ≤
      ({ fastPorts with raw := 2048 } : Ports).raw.toNat := by decide
theorem witness_ResetDominatesTheTicks :
    ({ fastPorts with rst := true } : Ports).fits exParams.rawWidth = true ∧
      ({ fastPorts with rst := true } : Ports).rst = true := by decide
theorem witness_EveryCommandCompletes : (st busyRegs fastPorts).params.wf = true := by decide
theorem witness_StepNeverStops :
    (st busyRegs Ports.zero [fastPorts]).params.wf = true ∧
      ∀ p, (st busyRegs Ports.zero [fastPorts]).pending.head? = some p → p.fits exParams.rawWidth = true := by
  refine ⟨by decide, fun p h => ?_⟩
  cases h; decide
theorem witness_CalReadAnswersInsideTheTable :
    Memory.wf exTable = true ∧ exTable[32]? = some (BitVec.ofInt 16 (-50)) ∧ exTable[33]? = none := by decide
theorem witness_ShortTableFaultsAtTheTop :
    (IsFastCommand .fastTick ∧ shortTableState.params.calTable.length = 32 ∧
      shortTableState.regs.secDiv.toNat = 15 ∧
      (shortTableState.regs.filt - (shortTableState.regs.filt >>> 4) + shortTableState.ports.raw).toNat / 1024 % 32
        = 31) ∧
    (st busyRegs fastPorts).regs.secDiv.toNat ≠ 15 :=
  ⟨⟨.inl rfl, by decide, by decide, by decide⟩, by decide⟩

/-- The hypotheses of FilterStepOnEveryFastTick, DividerSelectsTheConversion, DutyCounterCountsModulo100,
HeatComparator, CoolComparator, BuzzerInTheLastQuarter, PauseIndicatorBlinks and PumpGate: either fast
command and an admitted parameter set. -/
theorem witness_fast_command :
    (IsFastCommand .fastTick ∧ (st busyRegs fastPorts).params.wf = true) ∧
    (IsFastCommand .fastMenuTick ∧ (st busyRegs fastPorts).params.wf = true) :=
  ⟨⟨.inl rfl, exParams_wf⟩, ⟨.inr rfl, exParams_wf⟩⟩
theorem witness_ConversionWritesTheTemperature :
    (IsFastCommand .fastTick ∧ (st { busyRegs with secDiv := 15 } fastPorts).params.wf = true ∧
      (st { busyRegs with secDiv := 15 } fastPorts).regs.secDiv.toNat = 15) ∧
    (st { busyRegs with secDiv := 14 } fastPorts).regs.secDiv.toNat ≠ 15 :=
  ⟨⟨.inl rfl, exParams_wf, by decide⟩, by decide⟩
/-- The filter and the raw code at the top of their ranges for `RAW_WIDTH = 11`, about to convert. -/
def topState : State := st { Regs.reset with filt := 32767, secDiv := 15 } { fastPorts with raw := 2047 }

theorem witness_FilterNeverWraps :
    IsFastCommand .fastTick ∧ topState.params.wf = true ∧
      topState.ports.raw.toNat < 2 ^ topState.params.rawWidth ∧
      topState.regs.filt.toNat ≤ 2 ^ (topState.params.rawWidth + 4) - 1 := ⟨.inl rfl, by decide⟩
theorem witness_SteadyBandReadsTheRawCode :
    IsFastCommand .fastMenuTick ∧ topState.params.wf = true ∧ topState.ports.raw.toNat < 2048 ∧
      16 * topState.ports.raw.toNat ≤ topState.regs.filt.toNat ∧
      topState.regs.filt.toNat ≤ 16 * topState.ports.raw.toNat + 15 ∧ topState.regs.secDiv.toNat = 15 :=
  ⟨.inr rfl, by decide⟩
theorem witness_FilterSettlesInTheBand :
    exParams.wf = true ∧ 65536 ≤ 65536 ∧
      FastEdges (st busyRegs Ports.zero (List.replicate 65536 fastPorts)) 65536 (fun p => p.raw = 1000) :=
  ⟨exParams_wf, le_rfl, fastEdges_replicate le_rfl _ _ _ (by decide) (by decide) rfl⟩
theorem witness_EverySixteenthFastTickConverts :
    exParams.wf = true ∧ Regs.reset.secDiv = 0 ∧
      FastEdges (st Regs.reset Ports.zero (List.replicate 16 fastPorts)) 16 (fun _ => True) :=
  ⟨exParams_wf, rfl, fastEdges_replicate le_rfl _ _ _ (by decide) (by decide) trivial⟩
theorem witness_LatchOnlyAtTheCycleStart :
    (IsFastCommand .fastTick ∧ exParams.wf = true ∧ (st Regs.reset fastPorts).regs.outputCounter = 0) ∧
    (st { busyRegs with outputCounter := 1 } fastPorts).regs.outputCounter ≠ 0 :=
  ⟨⟨.inl rfl, exParams_wf, rfl⟩, by decide⟩
theorem witness_PauseOrOffForcesTheRelaysOff :
    IsFastCommand .fastTick ∧ exParams.wf = true ∧
      (({ fastPorts with off := true } : Ports).off = true ∨ ({ fastPorts with off := true } : Ports).pause = true) :=
  ⟨.inl rfl, exParams_wf, .inl rfl⟩
theorem witness_RelaysNeverBothOn :
    IsFastCommand .fastTick ∧ ∃ t, exec .fastTick (st busyRegs fastPorts) = .next t := ⟨.inl rfl, _, rfl⟩
theorem witness_OverRangeOutputCools :
    IsFastCommand .fastTick ∧ exParams.wf = true ∧
      ((st Regs.reset { fastPorts with output := 201 }).regs.outputCounter.toNat ≤ 99 ∧
        201 ≤ ({ fastPorts with output := 201 } : Ports).output.toNat) ∧
      ((st { busyRegs with outputCounter := 99, o := 255 } fastPorts).regs.outputCounter.toNat ≤ 99 ∧
        201 ≤ (st { busyRegs with outputCounter := 99, o := 255 } fastPorts).regs.o.toNat) :=
  ⟨.inl rfl, by decide⟩
/-- For every commanded value, so for 0, 1, 99, 100, 101, 200 and 255, the ends of R80's cases. -/
theorem witness_DutyOverOneCycle (v : BitVec 8) :
    exParams.wf = true ∧ Regs.reset.outputCounter = 0 ∧
      FastEdges (st Regs.reset Ports.zero (List.replicate 100 { fastPorts with output := v })) 100
        (fun p => p.output = v ∧ p.off = false ∧ p.pause = false) :=
  ⟨exParams_wf, rfl, fastEdges_replicate le_rfl _ _ _ rfl (show fastPorts.fits 11 = true by decide) ⟨rfl, rfl, rfl⟩⟩
theorem witness_DutyOverOneCycle_boundaries :
    ∀ v ∈ ([0, 1, 99, 100, 101, 150, 200, 201, 255] : List (BitVec 8)),
      FastEdges (st Regs.reset Ports.zero (List.replicate 100 { fastPorts with output := v })) 100
        (fun p => p.output = v ∧ p.off = false ∧ p.pause = false) :=
  fun v _ => (witness_DutyOverOneCycle v).2.2

/-- In the middle of a cycle, with 51 fast edges to come. -/
def midCycle : State := st busyRegs Ports.zero (List.replicate 51 fastPorts)

theorem witness_OutputChangeWaitsForTheCycle :
    (midCycle.params.wf = true ∧ 1 ≤ midCycle.regs.outputCounter.toNat ∧
      midCycle.regs.outputCounter.toNat ≤ 99 ∧ midCycle.regs.outputCounter.toNat + 50 ≤ 100 ∧
      FastEdges midCycle 50 (fun _ => True)) ∧
    midCycle.regs.outputCounter.toNat + 50 = 100 ∧ EdgeHolds midCycle 50 fastPorts ∧ fastPorts.isFast = true :=
  ⟨⟨exParams_wf, by decide, by decide, by decide,
    fastEdges_replicate (by decide) _ _ _ (by decide) (by decide) trivial⟩, by decide,
    ⟨by simp [midCycle, st], by decide⟩, by decide⟩
theorem witness_MenuTickShiftsTheHistory : (st busyRegs (menuPorts true)).params.wf = true := by decide
theorem witness_ClassTransitionTable :
    (IsMenuCommand .menuTick ∧ exParams.wf = true) ∧ (IsMenuCommand .fastMenuTick ∧ exParams.wf = true) :=
  ⟨⟨.inl rfl, exParams_wf⟩, ⟨.inr rfl, exParams_wf⟩⟩

/-- Three samples of 1 and two of 0 for the power button. -/
def pressState : State :=
  st Regs.reset Ports.zero [menuPorts true, menuPorts true, menuPorts true, menuPorts false, menuPorts false]

theorem witness_ButtonPressSequence :
    exParams.wf = true ∧ classify pressState.regs.btnHist .power = .idle ∧
      (∀ k, k ≤ 2 → MenuEdge pressState k .power true) ∧ MenuEdge pressState 3 .power false ∧
      MenuEdge pressState 4 .power false ∧
      (∀ k, k < 2 → MenuEdge (st Regs.reset Ports.zero [menuPorts false, menuPorts false]) k .power false) := by
  refine ⟨exParams_wf, by decide, fun k hk => ⟨menuPorts true, ⟨?_, by decide⟩, by decide, by decide⟩,
    ⟨menuPorts false, ⟨by decide, by decide⟩, by decide, by decide⟩,
    ⟨menuPorts false, ⟨by decide, by decide⟩, by decide, by decide⟩,
    fun k hk => ⟨menuPorts false, ⟨?_, by decide⟩, by decide, by decide⟩⟩
  · interval_cases k <;> rfl
  · interval_cases k <;> rfl

/-- One sample of 1 and two of 0 for the power button: the one-sample press. -/
def shortPressState : State := st Regs.reset Ports.zero [menuPorts true, menuPorts false, menuPorts false]

theorem witness_ButtonPressSequence_one_sample :
    shortPressState.params.wf = true ∧ classify shortPressState.regs.btnHist .power = .idle ∧
      (∀ k, k ≤ 0 → MenuEdge shortPressState k .power true) ∧ MenuEdge shortPressState 1 .power false ∧
      MenuEdge shortPressState 2 .power false := by
  refine ⟨exParams_wf, by decide, fun k hk => ⟨menuPorts true, ⟨?_, by decide⟩, by decide, by decide⟩,
    ⟨menuPorts false, ⟨by decide, by decide⟩, by decide, by decide⟩,
    ⟨menuPorts false, ⟨by decide, by decide⟩, by decide, by decide⟩⟩
  obtain rfl : k = 0 := by omega
  rfl
theorem witness_FastTickFrame :
    (IsFastCommand .fastTick ∧ ∃ t, exec .fastTick (st busyRegs fastPorts) = .next t) ∧
    (IsFastCommand .fastMenuTick ∧ ∃ t, exec .fastMenuTick (st busyRegs fastPorts) = .next t) ∧
    busyRegs.secDiv.toNat ≠ 15 ∧ busyRegs.outputCounter ≠ 0 :=
  ⟨⟨.inl rfl, _, rfl⟩, ⟨.inr rfl, _, rfl⟩, by decide, by decide⟩
/-- Ports that differ from fastPorts where a fast tick in the middle of a cycle does not read. -/
def otherPorts : Ports := { fastPorts with output := 7, tc := 9, btnIn := 5 }

theorem witness_OnlyTheNamedPortsAreRead :
    (IsMenuCommand .fastTick → otherPorts.btnIn = fastPorts.btnIn) ∧
    (IsFastCommand .fastTick → otherPorts.raw = fastPorts.raw ∧ otherPorts.off = fastPorts.off ∧
      otherPorts.pause = fastPorts.pause ∧ otherPorts.alarm = fastPorts.alarm ∧
      otherPorts.pump = fastPorts.pump ∧
      ((st busyRegs fastPorts).regs.outputCounter = 0 → otherPorts.output = fastPorts.output) ∧
      ((st busyRegs fastPorts).regs.secDiv.toNat = 15 → otherPorts.tc = fastPorts.tc)) ∧
    (∃ t, exec .fastTick (st busyRegs fastPorts) = .next t) ∧
    (∃ t, exec .fastTick { st busyRegs fastPorts with ports := otherPorts } = .next t) :=
  ⟨fun h => h.elim (fun h => by cases h) (fun h => by cases h),
    fun _ => ⟨rfl, rfl, rfl, rfl, rfl, fun h => absurd h (by decide),
      fun h => absurd h (by decide)⟩,
    ⟨_, rfl⟩, ⟨_, rfl⟩⟩
theorem witness_PadModeAndScaleAreNotRead : ∃ t, exec .fastTick (st busyRegs fastPorts) = .next t := ⟨_, rfl⟩
theorem witness_StepKeepsTheParameters : ∃ t, step (st busyRegs Ports.zero [fastPorts]) = .next t := ⟨_, rfl⟩
theorem witness_OutputsShowCommittedState :
    (st busyRegs Ports.zero).regs.pumpOn = true ∧
    (Regs.reset.pumpOn = false ∧ (st Regs.reset Ports.zero).params.pumpIdleMode = .driveLow) ∧
    ({ exParams with pumpIdleMode := .float } : Params).pumpIdleMode = .float := by decide
theorem witness_LaunchTakesExactlyTheAdmittedSets :
    (1 ≤ okRequest.rawWidth ∧ okRequest.rawWidth + 4 ≤ 16 ∧ okRequest.calTable.length = 33 ∧
      (∀ v ∈ okRequest.calTable, -32768 ≤ v ∧ v ≤ 32767) ∧
      (okRequest.pumpIdleMode = "DRIVE_LOW" ∨ okRequest.pumpIdleMode = "FLOAT")) ∧
    ¬({ okRequest with rawWidth := 13 } : ParamRequest).rawWidth + 4 ≤ 16 := by decide
/-- RAW_WIDTH at both admitted ends, with a table that holds i16's two ends and either pump mode, meets
the premise of the launched clause; just outside the ends it meets that of the refused one. -/
theorem witness_LaunchTakesExactlyTheAdmittedSets_boundaries :
    (∀ w ∈ [1, 12], ∀ m ∈ ["DRIVE_LOW", "FLOAT"],
      1 ≤ w ∧ w + 4 ≤ 16 ∧ (-32768 :: 32767 :: List.replicate 31 (0 : Int)).length = 33 ∧
      (∀ v ∈ (-32768 :: 32767 :: List.replicate 31 0 : List Int), -32768 ≤ v ∧ v ≤ 32767) ∧
      (m = "DRIVE_LOW" ∨ m = "FLOAT")) ∧
    (∀ w ∈ [0, 13], ¬(1 ≤ w ∧ w + 4 ≤ 16)) := by decide
theorem witness_LaunchMeetsTheInvariants : ∃ t, launch okRequest [] = .next t := ⟨_, rfl⟩

/-- A state with most registers away from reset that meets the invariants. -/
theorem steady_inv : Inv (st { busyRegs with heat := false, secTick := false } Ports.zero [fastPorts]) where
  params_wf := exParams_wf
  counter_range := by decide
  filt_bound := by decide
  sec_tick_div := by decide
  relays_exclusive := by decide
theorem witness_StepKeepsTheInvariants :
    Inv (st { busyRegs with heat := false, secTick := false } Ports.zero [fastPorts]) ∧
      ∃ t, step (st { busyRegs with heat := false, secTick := false } Ports.zero [fastPorts]) = .next t :=
  ⟨steady_inv, _, rfl⟩
theorem witness_EveryRunGoesOnAndIsSafe :
    Inv (st { busyRegs with heat := false, secTick := false } Ports.zero [fastPorts]) ∧
      ∀ p ∈ [fastPorts], p.fits exParams.rawWidth = true :=
  ⟨steady_inv, by decide⟩

end Sys2Proof.Tests
end

/-! ### The step's sampling and the launch: rules, and the statements of spec/00_scope.md -/

namespace Sys2Proof

open Machine

/-! #### Sampling the ports (R9, R41, R106) -/

/-- The test of R106 without the shortcut for 0, which is below every `2^w`. -/
theorem Ports.fits_iff (w : Nat) (p : Ports) : p.fits w = true ↔ p.raw.toNat < 2 ^ w := by
  have zero_lt : p.raw = 0 → p.raw.toNat < 2 ^ w := fun h => by simp [h]
  simpa [Ports.fits] using zero_lt

theorem freePorts_fits (w n : Nat) : (freePorts w n).fits w = true := by
  rw [Ports.fits_iff]
  calc (freePorts w n).raw.toNat
      = (Config.environment n).raw.toNat % 2 ^ w % 2 ^ 16 := BitVec.toNat_ofNat ..
    _ ≤ (Config.environment n).raw.toNat % 2 ^ w := Nat.mod_le ..
    _ < 2 ^ w := Nat.mod_lt _ (Nat.two_pow_pos w)

@[simp] theorem State.sampled_ports (s : State) (p : Ports) (rest : List Ports) :
    (s.sampled p rest).ports = p := rfl

@[simp] theorem State.sampled_params (s : State) (p : Ports) (rest : List Ports) :
    (s.sampled p rest).params = s.params := rfl

theorem sample_of_pending_cons {s : State} {p : Ports} {rest : List Ports}
    (h : s.pending = p :: rest) : sample s = s.sampled p rest := by
  simp [sample, h]

theorem sample_of_pending_nil {s : State} (h : s.pending = []) :
    sample s = s.sampled (freePorts s.params.rawWidth s.edge) [] := by
  simp [sample, h]

theorem runSampled_of_fits {s : State} (h : s.ports.fits s.params.rawWidth = true) :
    runSampled s = exec (decode s.ports.cmd) s :=
  if_pos h

theorem step_of_pending_cons {s : State} {p : Ports} {rest : List Ports}
    (h : s.pending = p :: rest) (hfits : p.fits s.params.rawWidth = true) :
    step s = exec (decode p.cmd) (s.sampled p rest) := by
  rw [step, sample_of_pending_cons h, runSampled_of_fits hfits, State.sampled_ports]

theorem step_of_pending_nil {s : State} (h : s.pending = []) :
    step s = exec (decode (freePorts s.params.rawWidth s.edge).cmd)
      (s.sampled (freePorts s.params.rawWidth s.edge) []) := by
  rw [step, sample_of_pending_nil h, runSampled_of_fits (freePorts_fits ..), State.sampled_ports]

/-! #### Launching (R6, R106) -/

@[simp] theorem rawWidthOk_iff (w : Nat) : rawWidthOk w = true ↔ 1 ≤ w ∧ w + 4 ≤ 16 := by
  simp [rawWidthOk, Config.filterShift, Config.filtWidth]

@[simp] theorem inI16_iff (v : Int) : inI16 v = true ↔ -32768 ≤ v ∧ v ≤ 32767 := by
  simp [inI16]

theorem pumpIdleModeOf_driveLow : pumpIdleModeOf "DRIVE_LOW" = some .driveLow := rfl

theorem pumpIdleModeOf_float : pumpIdleModeOf "FLOAT" = some .float := rfl

theorem pumpIdleModeOf_isSome_iff (name : String) :
    (pumpIdleModeOf name).isSome = true ↔ name = "DRIVE_LOW" ∨ name = "FLOAT" := by
  unfold pumpIdleModeOf
  split_ifs <;> simp_all

/-- The constraints of R6, written out. -/
theorem ParamRequest.wf_iff (q : ParamRequest) :
    q.wf = true ↔ 1 ≤ q.rawWidth ∧ q.rawWidth + 4 ≤ 16 ∧ q.calTable.length = 33 ∧
      (∀ v ∈ q.calTable, -32768 ≤ v ∧ v ≤ 32767) ∧
      (q.pumpIdleMode = "DRIVE_LOW" ∨ q.pumpIdleMode = "FLOAT") := by
  simp [ParamRequest.wf, pumpIdleModeOf_isSome_iff, and_assoc]

/-- The parameter set that launch builds from a request whose pump mode's name means `m`. -/
def ParamRequest.toParams (q : ParamRequest) (m : PumpIdleMode) : Params :=
  { rawWidth := q.rawWidth, calTable := q.calTable.map (BitVec.ofInt 16), pumpIdleMode := m,
    tempScale := q.tempScale }

/-- An entry in i16 is read back from its 16 bits as it was. -/
theorem toInt_ofInt_of_i16 {v : Int} (h : -32768 ≤ v ∧ v ≤ 32767) :
    (BitVec.ofInt 16 v).toInt = v :=
  BitVec.toInt_ofInt_eq_self (by decide) h.1 (by omega)

theorem ParamRequest.toParams_calTable_toInt (q : ParamRequest) (m : PumpIdleMode)
    (h : ∀ v ∈ q.calTable, -32768 ≤ v ∧ v ≤ 32767) :
    (q.toParams m).calTable.map BitVec.toInt = q.calTable := by
  rw [ParamRequest.toParams, List.map_map]
  calc q.calTable.map (BitVec.toInt ∘ BitVec.ofInt 16)
      = q.calTable.map id := List.map_congr_left fun v hv => toInt_ofInt_of_i16 (h v hv)
    _ = q.calTable := List.map_id _

/-- Everything a launch can do: start an admitted request at reset, or refuse one that is not. -/
theorem launch_cases (q : ParamRequest) (coming : List Ports) :
    (q.wf = true ∧ ∃ m, pumpIdleModeOf q.pumpIdleMode = some m ∧
        launch q coming = .next (launchState (q.toParams m) coming)) ∨
      (q.wf = false ∧ ∃ r, launch q coming = .refused r) := by
  unfold launch
  split_ifs with hw hlen htable
  · exact .inr ⟨by simp_all [ParamRequest.wf], _, rfl⟩
  · exact .inr ⟨by simp [ParamRequest.wf, hlen], _, rfl⟩
  · exact .inr ⟨by simp_all [ParamRequest.wf], _, rfl⟩
  · cases hm : pumpIdleModeOf q.pumpIdleMode with
    | none => exact .inr ⟨by simp [ParamRequest.wf, hm], _, rfl⟩
    | some m => exact .inl ⟨by simp_all [ParamRequest.wf], m, rfl, rfl⟩

/-- Settles O4: the two ways a step samples its ports (a described edge, a free one), each an instance
of its own rule. -/
theorem stepRunsTheSampledCommand : Obligations.StepRunsTheSampledCommand := by
  refine ⟨?described, fun s => step_of_pending_nil⟩
  case described =>
    rintro s p rest _ hpending hfits rfl
    exact step_of_pending_cons hpending hfits

/-- Settles O46: the constraints are `ParamRequest.wf`, and `launch_cases` says what launch does on
either side of it. -/
theorem launchTakesExactlyTheAdmittedSets : Obligations.LaunchTakesExactlyTheAdmittedSets := by
  intro q coming
  rw [← ParamRequest.wf_iff]
  obtain ⟨hwf, m, hm, hlaunch⟩ | ⟨hwf, hrefused⟩ := launch_cases q coming
  · obtain ⟨-, -, -, hentries, -⟩ := q.wf_iff.mp hwf
    have hmode {name : String} {m' : PumpIdleMode} (hmeans : pumpIdleModeOf name = some m')
        (hname : q.pumpIdleMode = name) : m = m' :=
      Option.some.inj (hm.symm.trans (hname ▸ hmeans))
    exact ⟨fun _ => ⟨_, hlaunch, rfl, rfl, rfl, rfl, q.toParams_calTable_toInt m hentries,
      hmode pumpIdleModeOf_driveLow, hmode pumpIdleModeOf_float⟩, absurd hwf⟩
  · exact ⟨fun h => by simp [h] at hwf, fun _ => hrefused⟩

end Sys2Proof

/-! ### The invariants of reachable states and the divider: the statements of spec/10_state.md -/

namespace Sys2Proof

open Machine

/-! #### The command that the strobes select (R43, R44) -/

/-- R44 on the strobes: `rst` dominates, then the two ticks select. -/
theorem decode_cmd (p : Ports) :
    decode p.cmd =
      if p.rst then .reset
      else if p.fastTick then (if p.menuTick then .fastMenuTick else .fastTick)
      else (if p.menuTick then .menuTick else .nop) := by
  have table : ∀ rst fast menu : Bool,
      decode (BitVec.ofBool rst ++ BitVec.ofBool fast ++ BitVec.ofBool menu) =
        if rst then .reset
        else if fast then (if menu then .fastMenuTick else .fastTick)
        else (if menu then .menuTick else .nop) := by decide
  exact table p.rst p.fastTick p.menuTick

theorem isFastCommand_decode_cmd {p : Ports} (h : p.isFast = true) : IsFastCommand (decode p.cmd) := by
  obtain ⟨hrst, hfast⟩ : p.rst = false ∧ p.fastTick = true := by simpa [Ports.isFast] using h
  rw [decode_cmd, hrst, hfast]
  cases p.menuTick with
  | false => exact .inl rfl
  | true => exact .inr rfl

/-! #### Progress and frame of a step (R101, R125, R40) -/

theorem regsAfter_ok {s : State} (h : s.params.wf = true) (i : Instr) : ∃ r, regsAfter i s = .ok r := by
  cases i with
  | nop => exact ⟨_, rfl⟩
  | menuTick => exact ⟨_, rfl⟩
  | fastTick => exact fastHalf_ok (wf_table h) s.ports s.regs
  | fastMenuTick => exact fastHalf_ok (wf_table h) s.ports (btnSample s.ports s.regs)
  | reset => exact ⟨_, rfl⟩

/-- With an admitted parameter set no command faults: the table has every entry a conversion reads. -/
theorem exec_completes {s : State} (h : s.params.wf = true) (i : Instr) : ∃ t, exec i s = .next t := by
  obtain ⟨r, hr⟩ := regsAfter_ok h i
  exact ⟨s.withRegs r, by rw [exec_eq_commit, hr, commit]⟩

theorem sample_ports_fits {s : State}
    (h : ∀ p, s.pending.head? = some p → p.fits s.params.rawWidth = true) :
    (sample s).ports.fits s.params.rawWidth = true := by
  cases hpending : s.pending with
  | nil => rw [Machine.sample_of_nil hpending]; exact Machine.freePorts_fits ..
  | cons p rest => rw [Machine.sample_of_cons hpending]; exact h p (by simp [hpending])

theorem step_completes {s : State} (hwf : s.params.wf = true)
    (hfits : ∀ p, s.pending.head? = some p → p.fits s.params.rawWidth = true) :
    ∃ t, step s = .next t := by
  rw [step_of_fits (sample_ports_fits hfits)]
  exact exec_completes (by rwa [sample_params]) _

theorem step_frame {s t : State} (h : step s = .next t) :
    t.params = s.params ∧ t.pending = s.pending.tail := by
  obtain ⟨hparams, -, hpending, -⟩ := exec_frame (step_cases h).2
  exact ⟨hparams.trans (sample_params s), hpending.trans (sample_pending s)⟩

/-! #### The filter's bound (R62) -/

theorem filtBound_lt {w : Nat} (hw : w ≤ 12) : filtBound w < 2 ^ 16 := by
  have hle : 2 ^ (w + 4) ≤ 2 ^ 16 := Nat.pow_le_pow_right (by decide) (by omega)
  change 2 ^ (w + 4) - 1 < 2 ^ 16
  omega

/-- The filter's step on numbers, `g(f) + raw` with `g(f) = f - floor(f / 2^K)`, keeps R62's bound. -/
theorem filter_add_raw_le_filtBound {w f raw : Nat} (hf : f ≤ filtBound w) (hraw : raw < 2 ^ w) :
    f - f / 16 + raw ≤ filtBound w := by
  have hpow : filtBound w = 16 * 2 ^ w - 1 := by
    rw [filtBound, Nat.pow_add, Nat.mul_comm, show 2 ^ Config.filterShift = 16 from rfl]
  omega

/-- FILTER_STEP never wraps at or below the bound (R62), neither in the difference nor in the sum. -/
theorem filterStep_filt_toNat {w : Nat} {q : Ports} {r : Regs} (hw : w ≤ 12)
    (hfilt : r.filt.toNat ≤ filtBound w) (hraw : q.raw.toNat < 2 ^ w) :
    (filterStep q r).filt.toNat = r.filt.toNat - r.filt.toNat / 16 + q.raw.toNat := by
  have hsum := filter_add_raw_le_filtBound hfilt hraw
  have hlt := filtBound_lt hw
  have hshift : (r.filt >>> 4).toNat = r.filt.toNat / 16 := by simp [Nat.shiftRight_eq_div_pow]
  have hle : r.filt >>> 4 ≤ r.filt := by rw [BitVec.le_def, hshift]; exact Nat.div_le_self ..
  have hsub : (r.filt - (r.filt >>> 4)).toNat = r.filt.toNat - r.filt.toNat / 16 := by
    rw [BitVec.toNat_sub_of_le hle, hshift]
  rw [filterStep_filt, BitVec.toNat_add_of_lt (by omega), hsub]

/-! #### What a fast tick's registers satisfy (R57, R62, R70, R79) -/

namespace Machine.FastFacts

variable {i : Instr} {s t : State}

theorem params_eq (h : FastFacts i s t) : t.params = s.params := by rw [h.frame]; rfl

theorem counter_le (h : FastFacts i s t) : t.regs.outputCounter.toNat ≤ 99 := by
  rw [h.outputCounter, BitVec.toNat_ofNat]
  omega

theorem filt_toNat (h : FastFacts i s t) (hwf : s.params.wf = true)
    (hfits : s.ports.fits s.params.rawWidth = true)
    (hfilt : s.regs.filt.toNat ≤ filtBound s.params.rawWidth) :
    t.regs.filt.toNat = s.regs.filt.toNat - s.regs.filt.toNat / 16 + s.ports.raw.toNat := by
  rw [h.filt, ← filterStep_filt, filterStep_filt_toNat (wf_rawWidth hwf).2 hfilt (Machine.fits_iff.1 hfits)]

theorem filt_le (h : FastFacts i s t) (hwf : s.params.wf = true)
    (hfits : s.ports.fits s.params.rawWidth = true)
    (hfilt : s.regs.filt.toNat ≤ filtBound s.params.rawWidth) :
    t.regs.filt.toNat ≤ filtBound s.params.rawWidth := by
  rw [h.filt_toNat hwf hfits hfilt]
  exact filter_add_raw_le_filtBound hfilt (Machine.fits_iff.1 hfits)

theorem secDiv_toNat (h : FastFacts i s t) : t.regs.secDiv.toNat = (s.regs.secDiv.toNat + 1) % 16 := by
  rw [h.secDiv, BitVec.toNat_ofNat]
  omega

theorem secTick_iff (h : FastFacts i s t) : t.regs.secTick = true ↔ s.regs.secDiv.toNat = 15 := by
  rw [h.secTick, decide_eq_true_iff]

theorem secDiv_eq_zero (h : FastFacts i s t) (htick : t.regs.secTick = true) : t.regs.secDiv = 0 := by
  rw [h.secDiv, h.secTick_iff.1 htick]
  rfl

theorem not_heat_and_cool (h : FastFacts i s t) : ¬(t.regs.heat = true ∧ t.regs.cool = true) := by
  simp only [h.heat, h.cool, Bool.and_eq_true, decide_eq_true_iff]
  rintro ⟨⟨⟨-, hlimit⟩, -⟩, -, hbase⟩
  omega

end Machine.FastFacts

/-! #### Every command keeps the invariants (R31) -/

/-- The invariants speak of the registers and the parameters only. -/
theorem Inv.of_eq {s t : State} (h : Inv s) (hregs : t.regs = s.regs) (hparams : t.params = s.params) :
    Inv t where
  params_wf := by rw [hparams]; exact h.params_wf
  counter_range := by rw [hregs]; exact h.counter_range
  filt_bound := by rw [hregs, hparams]; exact h.filt_bound
  sec_tick_div := by rw [hregs]; exact h.sec_tick_div
  relays_exclusive := by rw [hregs]; exact h.relays_exclusive

theorem inv_sample {s : State} (h : Inv s) : Inv (sample s) := h.of_eq (sample_regs s) (sample_params s)

/-- Where R31's derivation begins: the reset registers under any admitted parameter set. -/
theorem inv_of_regs_reset {s : State} (hregs : s.regs = Regs.reset) (hwf : s.params.wf = true) : Inv s where
  params_wf := hwf
  counter_range := by rw [hregs]; decide
  filt_bound := by rw [hregs]; exact Nat.zero_le _
  sec_tick_div := by rw [hregs]; decide
  relays_exclusive := by rw [hregs]; decide

theorem inv_of_fastFacts {i : Instr} {s t : State} (h : Inv s) (hfits : s.ports.fits s.params.rawWidth = true)
    (hfast : FastFacts i s t) : Inv t where
  params_wf := by rw [hfast.params_eq]; exact h.params_wf
  counter_range := hfast.counter_le
  filt_bound := by rw [hfast.params_eq]; exact hfast.filt_le h.params_wf hfits h.filt_bound
  sec_tick_div := hfast.secDiv_eq_zero
  relays_exclusive := hfast.not_heat_and_cool

theorem inv_btnSample {s : State} (h : Inv s) : Inv (s.withRegs (btnSample s.ports s.regs)) where
  params_wf := h.params_wf
  counter_range := h.counter_range
  filt_bound := h.filt_bound
  sec_tick_div := h.sec_tick_div
  relays_exclusive := h.relays_exclusive

theorem exec_keeps_inv {i : Instr} {s t : State} (hs : Inv s)
    (hfits : s.ports.fits s.params.rawWidth = true) (h : exec i s = .next t) : Inv t := by
  cases i with
  | nop => cases h; exact hs
  | menuTick => cases h; exact inv_btnSample hs
  | fastTick => exact inv_of_fastFacts hs hfits (fast_facts (.inl rfl) h)
  | fastMenuTick => exact inv_of_fastFacts hs hfits (fast_facts (.inr rfl) h)
  | reset => cases h; exact inv_of_regs_reset resetRegs_eq hs.params_wf

theorem step_keeps_inv {s t : State} (hs : Inv s) (h : step s = .next t) : Inv t := by
  obtain ⟨hfits, hexec⟩ := step_cases h
  exact exec_keeps_inv (inv_sample hs) (by rwa [sample_params]) hexec

/-- Settles O49: the step is the command that the sampled strobes select, and each command keeps the
invariants. -/
theorem stepKeepsTheInvariants : Obligations.StepKeepsTheInvariants :=
  fun _ _ => step_keeps_inv

/-- Settles O50: along a run the parameters stay and the coming values are the rest of those described
at the start, so each edge still fits; the step completes and keeps the invariants. -/
theorem everyRunGoesOnAndIsSafe : Obligations.EveryRunGoesOnAndIsSafe := by
  intro s n hs hfits
  have carried (k : Nat) (u : State) (_ : k < n) (hu : Inv u) (hparams : u.params = s.params)
      (hpending : u.pending = s.pending.drop k) :
      ∃ t, step u = .next t ∧ t.params = u.params ∧ t.pending = u.pending.tail ∧ Inv t := by
    have hnext (p : Ports) (hp : u.pending.head? = some p) : p.fits u.params.rawWidth = true := by
      rw [hparams]
      exact hfits p (List.mem_of_mem_drop (hpending ▸ List.mem_of_mem_head? hp))
    obtain ⟨t, ht⟩ := step_completes hu.params_wf hnext
    exact ⟨t, ht, (step_frame ht).1, (step_frame ht).2, step_keeps_inv hu ht⟩
  obtain ⟨t, hrun, ht, -, -⟩ := run_induction (fun _ => Inv) hs carried n le_rfl
  exact ⟨t, hrun, ht⟩

/-! #### A run of fast ticks (R17, R18) -/

theorem step_fast_edge {s : State} {p : Ports} (hwf : s.params.wf = true) (hedge : EdgeHolds s 0 p)
    (hfast : p.isFast = true) : ∃ i t, step s = .next t ∧ FastFacts i (sample s) t := by
  obtain ⟨hat, hfits⟩ := hedge
  have hhead : s.pending.head? = some p := by rwa [List.head?_eq_getElem?]
  obtain ⟨t, ht⟩ := step_completes hwf (by simpa [hhead] using hfits)
  have hports : (sample s).ports = p := by
    obtain ⟨rest, hpending⟩ := List.head?_eq_some_iff.1 hhead
    rw [Machine.sample_of_cons hpending, sampled_ports]
  exact ⟨_, t, ht, fast_facts (isFastCommand_decode_cmd (by rwa [hports])) (step_cases ht).2⟩

/-- What R17 and R18 say of `r`, `n` fast ticks after the divider stood at 0 in `r₀`. -/
structure AfterFastTicks (r₀ : Regs) (n : Nat) (r : Regs) : Prop where
  secDiv : r.secDiv.toNat = n % 16
  secTick : 0 < n → (r.secTick = true ↔ n % 16 = 0)
  held : n < 16 → r.temperature = r₀.temperature

theorem AfterFastTicks.zero {r₀ : Regs} (h : r₀.secDiv = 0) : AfterFastTicks r₀ 0 r₀ where
  secDiv := by rw [h]; rfl
  secTick := fun h => absurd h (Nat.lt_irrefl 0)
  held := fun _ => rfl

theorem AfterFastTicks.succ {r₀ : Regs} {n : Nat} {i : Instr} {s t : State}
    (h : AfterFastTicks r₀ n s.regs) (hfast : FastFacts i s t) : AfterFastTicks r₀ (n + 1) t.regs where
  secDiv := by rw [hfast.secDiv_toNat, h.secDiv]; omega
  secTick := fun _ => by rw [hfast.secTick_iff, h.secDiv]; omega
  held := fun hn => (hfast.held (by rw [h.secDiv]; omega)).trans (h.held (by omega))

/-- Settles O22, by induction along the run: one more fast tick carries `AfterFastTicks`. -/
theorem everySixteenthFastTickConverts : Obligations.EverySixteenthFastTickConverts := by
  intro s n hwf hdiv hedges
  have carried (k : Nat) (u : State) (hk : k < n) (hu : AfterFastTicks s.regs k u.regs)
      (hparams : u.params = s.params) (hpending : u.pending = s.pending.drop k) :
      ∃ t, step u = .next t ∧ t.params = u.params ∧ t.pending = u.pending.tail ∧
        AfterFastTicks s.regs (k + 1) t.regs := by
    obtain ⟨p, hedge, hfast, -⟩ := hedges k hk
    obtain ⟨i, t, ht, hfacts⟩ :=
      step_fast_edge (by rwa [hparams]) (edgeHolds_after hedge hparams hpending) hfast
    exact ⟨t, ht, (step_frame ht).1, (step_frame ht).2, .succ (by rwa [sample_regs]) hfacts⟩
  obtain ⟨t, hrun, ⟨hsecDiv, hsecTick, hheld⟩, -, -⟩ :=
    run_induction (fun k u => AfterFastTicks s.regs k u.regs) (.zero hdiv) carried n le_rfl
  exact ⟨t, hrun, hsecDiv, hsecTick, hheld⟩

/-! #### Where runs begin (R111, R113) -/

theorem ParamRequest.toParams_wf {q : ParamRequest} (h : q.wf = true) (m : PumpIdleMode) :
    (q.toParams m).wf = true := by
  obtain ⟨hlow, hhigh, hlength, -, -⟩ := q.wf_iff.1 h
  simp [Params.wf, ParamRequest.toParams, hlow, hhigh, hlength]

/-- Settles O48: a launch that answers starts an admitted request at the reset registers. -/
theorem launchMeetsTheInvariants : Obligations.LaunchMeetsTheInvariants := by
  intro q coming t h
  obtain ⟨hwf, m, -, hlaunch⟩ | ⟨-, r, hrefused⟩ := launch_cases q coming
  · cases hlaunch.symm.trans h
    exact inv_of_regs_reset rfl (q.toParams_wf hwf m)
  · cases hrefused.symm.trans h

/-- Settles O47: the free parameters of the reset state are an admitted set, whatever they are. -/
theorem resetMeetsTheInvariants : Obligations.ResetMeetsTheInvariants :=
  inv_of_regs_reset rfl launchParams_wf

end Sys2Proof

/-! ### The table and its reader: the statements of spec/20_memory.md -/

namespace Sys2Proof

open Machine

theorem Memory.wf_iff (m : Memory) : m.wf = true ↔ m.length = 33 := by
  simp [Memory.wf, Config.calTableLen]

/-- Settles O11: the reader answers inside the list and faults outside it, and the list has 33 entries. -/
theorem calReadAnswersInsideTheTable : Obligations.CalReadAnswersInsideTheTable := by
  intro m i hwf
  have hlength : m.length = 33 := (Memory.wf_iff m).1 hwf
  refine ⟨fun v _ hv => ?answers, fun hi => ?exists_entry, fun hi => ?faults⟩
  case answers =>
    obtain ⟨hlt, rfl⟩ := List.getElem?_eq_some_iff.1 hv
    exact calRead_of_lt hlt
  case exists_entry => exact ⟨_, List.getElem?_eq_getElem (hlength.symm ▸ hi)⟩
  case faults => exact calRead_of_ge (hlength.symm ▸ hi)

/-- Settles O44: sampling takes one coming edge and counts it, and the command that follows writes the
registers only. -/
theorem stepKeepsTheParameters : Obligations.StepKeepsTheParameters := by
  intro s t h
  obtain ⟨hparams, hpending⟩ := step_frame h
  obtain ⟨-, -, -, hedge⟩ := exec_frame (step_cases h).2
  exact ⟨hparams, hpending, hedge.trans (sample_edge s)⟩

end Sys2Proof

/-! ### The command word, the ports read and the ports shown: the statements of spec/30_encoding.md -/

namespace Sys2Proof

open Machine

/-! #### The rows of R44's table (R43, R44, R45) -/

@[simp] theorem decode_encode (i : Instr) : decode (encode i) = i := by
  cases i <;> rfl

/-- `rst` dominates: `CMD[2]` alone selects RESET. -/
theorem decode_of_rst_bit {w : Cmd} (h : w.getLsbD 2 = true) : decode w = .reset := if_pos h

/-- A row whose mask is the whole word matches its own word only. -/
theorem rowMatches_iff_of_full_mask {i : Instr} (h : encodeMask i = BitVec.allOnes 3) (w : Cmd) :
    rowMatches i w = true ↔ w = encode i := by
  rw [rowMatches, h, BitVec.and_allOnes, beq_iff_eq]

/-- The mask of RESET's row leaves `CMD[2]`. -/
theorem rowMatches_reset_iff : ∀ w : Cmd, rowMatches .reset w = true ↔ w.getLsbD 2 = true := by
  decide

/-- No row is missing: the row of the decoded command matches. -/
theorem rowMatches_decode : ∀ w : Cmd, rowMatches (decode w) w = true := by
  decide

/-- No two rows overlap: a row that matches is that of the decoded command. -/
theorem decode_of_rowMatches {i : Instr} {w : Cmd} (h : rowMatches i w = true) : decode w = i := by
  cases i with
  | nop | menuTick | fastTick | fastMenuTick =>
    rw [(rowMatches_iff_of_full_mask rfl w).1 h, decode_encode]
  | reset => exact decode_of_rst_bit ((rowMatches_reset_iff w).1 h)

/-- Settles O1: a word with `CMD[2]` clear is its command's own word, and one with it set is RESET. -/
theorem commandWordsDecode : Obligations.CommandWordsDecode :=
  ⟨decode_encode .nop, decode_encode .menuTick, decode_encode .fastTick, decode_encode .fastMenuTick,
    decode_of_rst_bit rfl, decode_of_rst_bit rfl, decode_of_rst_bit rfl, decode_of_rst_bit rfl⟩

/-- Settles O2: each clause is a branch of `decode_cmd`. -/
theorem strobesSelectTheCommand : Obligations.StrobesSelectTheCommand := by
  intro p
  rw [decode_cmd]
  refine ⟨fun hrst => if_pos hrst, ?_, ?_, ?_, ?_⟩ <;>
  · intro hrst hfast hmenu
    rw [hrst, hfast, hmenu]
    rfl

/-- Settles O3: the decoded command's row matches, and no other row does. -/
theorem decodeEncodeAgree : Obligations.DecodeEncodeAgree :=
  ⟨fun i _ => decode_encode i, fun w _ => ⟨decode_of_rowMatches, fun h => h ▸ rowMatches_decode w⟩⟩

/-! #### What the output ports show (R24, R42, R51) -/

/-- The code of a button's class is `{btn_hist[i+4], btn_hist[i]}`. -/
theorem classCode_classify (h : BitVec 8) (b : Button) :
    classCode (classify h b) =
      BitVec.ofBool (h.getLsbD (buttonBit b + 4)) ++ BitVec.ofBool (h.getLsbD (buttonBit b)) := by
  have codes : ∀ previous current : Bool,
      classCode (classOf previous current) = BitVec.ofBool previous ++ BitVec.ofBool current := by decide
  exact codes (btnPrevious h b) (btnCurrent h b)

@[simp] theorem pumpPad_on (m : PumpIdleMode) : pumpPad m true = .on := rfl
@[simp] theorem pumpPad_driveLow : pumpPad .driveLow false = .drivenLow := rfl
@[simp] theorem pumpPad_float : pumpPad .float false = .floating := rfl

@[simp] theorem outputs_pumpPad (s : State) :
    (outputs s).pumpPad = pumpPad s.params.pumpIdleMode s.regs.pumpOn := rfl

/-- Settles O45: the registered ports are registers by definition, a class port is `classCode_classify`
at its button, and the pad is a case of `pumpPad`. -/
theorem outputsShowCommittedState : Obligations.OutputsShowCommittedState := by
  intro s
  refine ⟨rfl, rfl, rfl, rfl, rfl, rfl, rfl, rfl, classCode_classify _ .power,
    classCode_classify _ .select, classCode_classify _ .up, classCode_classify _ .down,
    fun hon => ?on, fun hoff hmode => ?driven_low, fun hoff hmode => ?floating⟩
  case on => rw [outputs_pumpPad, hon, pumpPad_on]
  case driven_low => rw [outputs_pumpPad, hoff, hmode, pumpPad_driveLow]
  case floating => rw [outputs_pumpPad, hoff, hmode, pumpPad_float]

/-! #### What a command reads of the ports (R41) -/

/-- Two port assignments agree where R41 has a fast tick read them, from the registers `r`: `raw` and
the flags always, `output` where LATCH copies it, `tc` where the tick converts. -/
structure FastPortsAgree (r : Regs) (p q : Ports) : Prop where
  raw : p.raw = q.raw
  off : p.off = q.off
  pause : p.pause = q.pause
  alarm : p.alarm = q.alarm
  pump : p.pump = q.pump
  output : r.outputCounter = 0 → p.output = q.output
  tc : r.secDiv.toNat = 15 → p.tc = q.tc

/-- BTN_SAMPLE touches neither the counter nor the divider, so a sample between changes nothing. -/
theorem FastPortsAgree.after_btnSample {r : Regs} {p q : Ports} (h : FastPortsAgree r p q) (q' : Ports) :
    FastPortsAgree (btnSample q' r) p q := { h with }

theorem btnSample_congr {p q : Ports} (h : p.btnIn = q.btnIn) (r : Regs) : btnSample p r = btnSample q r := by
  simp only [btnSample, h]

theorem filterStep_congr {p q : Ports} (h : p.raw = q.raw) (r : Regs) : filterStep p r = filterStep q r := by
  simp only [filterStep, rawOperand, h]

theorem convertedValue_congr {p q : Ports} (h : p.tc = q.tc) : convertedValue p = convertedValue q := by
  funext filt lo hi
  rw [convertedValue, convertedValue, tcOperand, tcOperand, h]

/-- Where it is not due, CONVERT clears `sec_tick` and holds the temperature, whatever the ports hold
(R60). -/
theorem convert_not_due (m : Memory) (q : Ports) (r : Regs) :
    convert m q false r = .ok { r with secTick := false } := rfl

/-- CONVERT reads `tc` only where the conversion is due (R60). -/
theorem convert_congr {m : Memory} {p q : Ports} {due : Bool} (h : due = true → p.tc = q.tc) (r : Regs) :
    convert m p due r = convert m q due r := by
  cases due with
  | false => rw [convert_not_due, convert_not_due]
  | true => rw [convert, convert, convertedValue_congr (h rfl)]

theorem acqStep_congr {m : Memory} {p q : Ports} {r : Regs} (h : FastPortsAgree r p q) :
    acqStep m p r = acqStep m q r := by
  rw [acqStep, acqStep, filterStep_congr h.raw]
  exact convert_congr (fun hdue => h.tc (by simpa using (convertDue_iff (filterStep q r)).1 hdue)) _

/-- The ACQ half leaves PWM's counter. -/
theorem acqStep_outputCounter {m : Memory} {q : Ports} {r r' : Regs} (h : acqStep m q r = .ok r') :
    r'.outputCounter = r.outputCounter := by
  obtain ⟨-, rfl⟩ | ⟨-, _, _, -, rfl⟩ := acqStep_cases h <;> rfl

/-- LATCH reads `output` only at the start of a cycle (R69). -/
theorem latchStep_congr {p q : Ports} {c : BitVec 7} (h : c = 0 → p.output = q.output) (r : Regs) :
    latchStep p c r = latchStep q c r := by
  unfold latchStep
  split_ifs with hc
  · rw [outputOperand, outputOperand, h hc]
  · rfl

/-- Beside LATCH, PWM_STEP reads the four flags only (R78). -/
theorem pwmStep_congr {p q : Ports} {r : Regs} (hoff : p.off = q.off) (hpause : p.pause = q.pause)
    (halarm : p.alarm = q.alarm) (hpump : p.pump = q.pump)
    (houtput : r.outputCounter = 0 → p.output = q.output) : pwmStep p r = pwmStep q r := by
  have hforced : notForcedOff p = notForcedOff q := by rw [notForcedOff, notForcedOff, hoff, hpause]
  have hpaused : pausedNotOff p = pausedNotOff q := by rw [pausedNotOff, pausedNotOff, hoff, hpause]
  have hheat (c r) : heatStep p c r = heatStep q c r := by rw [heatStep, heatStep, hforced]
  have hcool (c r) : coolStep p c r = coolStep q c r := by rw [coolStep, coolStep, hforced]
  have hbuzzer (c r) : buzzerStep p c r = buzzerStep q c r := by rw [buzzerStep, buzzerStep, halarm]
  have hind (c r) : pauseIndStep p c r = pauseIndStep q c r := by rw [pauseIndStep, pauseIndStep, hpaused]
  have hdrive (r) : pumpStep p r = pumpStep q r := by rw [pumpStep, pumpStep, hpump, hforced]
  simp only [pwmStep, latchStep_congr houtput, hheat, hcool, hbuzzer, hind, hdrive]

theorem fastHalf_congr {m : Memory} {p q : Ports} {r : Regs} (h : FastPortsAgree r p q) :
    fastHalf m p r = fastHalf m q r := by
  unfold fastHalf
  rw [acqStep_congr h]
  cases hacq : acqStep m q r with
  | error f => rfl
  | ok r' =>
    have hcounter := acqStep_outputCounter hacq
    exact congrArg Except.ok (pwmStep_congr h.off h.pause h.alarm h.pump fun h0 => h.output (hcounter ▸ h0))

/-- What a command writes, or its fault, depends on the ports that R41 names for it only. -/
theorem regsAfter_congr_ports {i : Instr} {s : State} {p : Ports}
    (hmenu : IsMenuCommand i → p.btnIn = s.ports.btnIn)
    (hfast : IsFastCommand i → FastPortsAgree s.regs p s.ports) :
    regsAfter i { s with ports := p } = regsAfter i s := by
  cases i with
  | nop | reset => rfl
  | menuTick => exact congrArg Except.ok (btnSample_congr (hmenu (.inl rfl)) s.regs)
  | fastTick => exact fastHalf_congr (hfast (.inl rfl))
  | fastMenuTick =>
    rw [regsAfter, regsAfter, btnSample_congr (hmenu (.inr rfl))]
    exact fastHalf_congr ((hfast (.inr rfl)).after_btnSample s.ports)

/-- Settles O42: both runs commit the registers that `regsAfter` gives, which are the same. -/
theorem onlyTheNamedPortsAreRead : Obligations.OnlyTheNamedPortsAreRead := by
  intro i s p t t' hmenu hfast ht ht'
  have hagree (hi : IsFastCommand i) : FastPortsAgree s.regs p s.ports := by
    obtain ⟨hraw, hoff, hpause, halarm, hpump, houtput, htc⟩ := hfast hi
    exact ⟨hraw, hoff, hpause, halarm, hpump, houtput, htc⟩
  obtain ⟨r, hr, rfl⟩ := exec_cases ht
  obtain ⟨r', hr', rfl⟩ := exec_cases ht'
  rw [regsAfter_congr_ports hmenu hagree, hr] at hr'
  exact Except.ok.inj hr'

end Sys2Proof

/-! ### Acquisition: the statements of spec/40_acquisition.md -/

namespace Sys2Proof

open Machine

/-! #### INTERP's accumulator as an integer (R58) -/

/-- Accumulating words adds their integers, modulo `2^w`. -/
theorem foldl_add_eq_ofInt {α : Type} {w : Nat} (term : α → BitVec w) (l : List α) (init : BitVec w) :
    l.foldl (fun acc i => acc + term i) init =
      BitVec.ofInt w (init.toInt + (l.map fun i => (term i).toInt).sum) := by
  induction l generalizing init with
  | nil => simp
  | cons i l ih =>
    rw [List.foldl_cons, ih, List.map_cons, List.sum_cons]
    simp only [BitVec.ofInt_add, BitVec.ofInt_toInt, add_assoc]

/-- The first `n` terms of INTERP's sum: `hi` before the index `a`, `lo` from it on. -/
def interpSum (lo hi : Int) (a n : Nat) : Int :=
  ((List.range n).map fun i => if a ≤ i then lo else hi).sum

theorem interpSum_succ (lo hi : Int) (a n : Nat) :
    interpSum lo hi a (n + 1) = interpSum lo hi a n + if a ≤ n then lo else hi := by
  simp [interpSum, List.range_succ]

/-- Each of the terms is one of the two entries. -/
theorem interpSum_between (lo hi : Int) (a n : Nat) :
    n * min lo hi ≤ interpSum lo hi a n ∧ interpSum lo hi a n ≤ n * max lo hi := by
  induction n with
  | zero => simp [interpSum]
  | succ n ih =>
    rw [interpSum_succ, Nat.cast_succ, add_one_mul, add_one_mul]
    split <;> omega

/-- `hi` is added at the indices below `a`, `lo` at the others (R61's derivation). -/
theorem interpSum_eq (lo hi : Int) (a n : Nat) :
    interpSum lo hi a n = n * lo + (min a n : Nat) * (hi - lo) := by
  induction n with
  | zero => simp [interpSum]
  | succ n ih =>
    rw [interpSum_succ, ih]
    split
    case isTrue h => rw [min_eq_left h, min_eq_left (Nat.le_succ_of_le h)]; push_cast; ring
    case isFalse h =>
      rw [min_eq_right (by omega), min_eq_right (by omega)]
      push_cast
      ring

theorem interpAcc_eq_ofInt (init : Acc) (lo hi : Word) (a : BitVec 6) :
    interpAcc init lo hi a =
      BitVec.ofInt 32 (init.toInt + interpSum lo.toInt hi.toInt a.toNat 64) := by
  have term_toInt (i : Nat) :
      (if a.toNat ≤ i then lo.signExtend 32 else hi.signExtend 32).toInt =
        if a.toNat ≤ i then lo.toInt else hi.toInt := by
    rw [apply_ite BitVec.toInt, BitVec.toInt_signExtend_of_le (by decide),
      BitVec.toInt_signExtend_of_le (by decide)]
  rw [interpAcc, foldl_add_eq_ofInt, interpSum]
  simp only [term_toInt]

/-- 64 terms of i16 stay far inside 32 bits, so the accumulator never wraps. -/
theorem interp_toInt (lo hi : Word) (a : BitVec 6) :
    (interp lo hi a).toInt = interpSum lo.toInt hi.toInt a.toNat 64 / 64 := by
  obtain ⟨hlower, hupper⟩ := interpSum_between lo.toInt hi.toInt a.toNat 64
  have hlo : -32768 ≤ lo.toInt ∧ lo.toInt < 32768 := ⟨lo.le_toInt, lo.toInt_lt⟩
  have hhi : -32768 ≤ hi.toInt ∧ hi.toInt < 32768 := ⟨hi.le_toInt, hi.toInt_lt⟩
  rw [interp, BitVec.toInt_sshiftRight, Int.shiftRight_eq_div_pow, interpAcc_eq_ofInt,
    show Config.accInit.toInt = 0 from rfl, zero_add,
    BitVec.toInt_ofInt_eq_self (by decide) (by omega) (by omega)]
  rfl

/-- Settles O15: the accumulator does not wrap, and the shift is the division. -/
theorem interpIsTheFlooredSum : Obligations.InterpIsTheFlooredSum :=
  interp_toInt

/-- Settles O16: `64 * lo` goes out of the floored quotient whole. -/
theorem interpClosedForm : Obligations.InterpClosedForm := by
  intro lo hi a
  have ha : min a.toNat 64 = a.toNat := min_eq_left a.isLt.le
  rw [interp_toInt, interpSum_eq, ha, add_comm, Nat.cast_ofNat,
    Int.add_mul_ediv_left _ _ (by decide), add_comm]

/-- Settles O17: the sum lies between 64 times either entry; at `a = 0` the closed form's second term
is 0. -/
theorem interpBetweenItsEntries : Obligations.InterpBetweenItsEntries := by
  intro lo hi a
  obtain ⟨hlower, hupper⟩ := interpSum_between lo.toInt hi.toInt a.toNat 64
  refine ⟨?_, ?_, ?at_zero⟩
  case at_zero => simpa using interpClosedForm lo hi 0
  all_goals rw [interp_toInt]; omega

/-! #### What a converting tick writes (R59, R60) -/

/-- The low bits of a word are those of its integer. -/
theorem setWidth_eq_ofInt_toInt {v w : Nat} (h : v ≤ w) (x : BitVec w) :
    x.setWidth v = BitVec.ofInt v x.toInt :=
  (BitVec.signExtend_eq_setWidth_of_le x h).symm

/-- Only the 16 bits that `temperature` keeps matter: the sum on integers, wrapped to i16. -/
theorem convertedValue_eq_ofInt (q : Ports) (filt lo hi : Word) :
    convertedValue q filt lo hi =
      BitVec.ofInt 16 ((interp lo hi (splitFraction filt)).toInt + q.tc.toInt) := by
  have htc : (tcOperand q).toInt = q.tc.toInt := BitVec.toInt_signExtend_of_le (by decide)
  rw [convertedValue, BitVec.setWidth_add _ _ (by decide), setWidth_eq_ofInt_toInt (by decide),
    setWidth_eq_ofInt_toInt (by decide), htc, BitVec.ofInt_add]

/-- With an admitted parameter set a fast command answers, and everything in `FastFacts` holds. -/
theorem exec_fast_facts {i : Instr} {s : State} (hi : IsFastCommand i) (hwf : s.params.wf = true) :
    ∃ t, exec i s = .next t ∧ FastFacts i s t := by
  obtain ⟨t, ht⟩ := exec_completes hwf i
  exact ⟨t, ht, fast_facts hi ht⟩

/-- Settles O18: the entries and the fraction are SPLIT's, as arithmetic, of the new filter value. -/
theorem conversionWritesTheTemperature : Obligations.ConversionWritesTheTemperature := by
  intro i s hi hwf
  obtain ⟨t, ht, hfast⟩ := exec_fast_facts hi hwf
  refine ⟨t, ht, fun hdue => ?converted, fun hnot => ⟨hfast.held hnot, ?not_due⟩⟩
  case converted =>
    obtain ⟨lo, hi', hlo, hhi, htemp⟩ := hfast.converted hdue
    rw [splitIndex_toNat] at hlo hhi
    rw [convertedValue_eq_ofInt, interp_toInt, splitFraction_toNat] at htemp
    exact ⟨lo, hi', hlo, hhi, htemp, hfast.secTick_iff.2 hdue⟩
  case not_due => rw [hfast.secTick, decide_eq_false hnot]

/-! #### The filter and the divider at a fast tick (R56, R57, R62, R65) -/

namespace Machine.FastFacts

variable {i : Instr} {s t : State}

theorem filt_toNat_mod (h : FastFacts i s t) :
    t.regs.filt.toNat =
      (s.regs.filt.toNat - s.regs.filt.toNat / 16 + s.ports.raw.toNat) % 65536 := by
  have hshift : (s.regs.filt >>> 4).toNat = s.regs.filt.toNat / 16 := by
    simp [Nat.shiftRight_eq_div_pow]
  have hle : s.regs.filt >>> 4 ≤ s.regs.filt := by
    rw [BitVec.le_def, hshift]
    exact Nat.div_le_self ..
  rw [h.filt, BitVec.toNat_add, BitVec.toNat_sub_of_le hle, hshift]

/-- With a raw code that any admitted port can hold, the filter does not wrap from any value. -/
theorem filt_toNat_of_raw_lt (h : FastFacts i s t) (hraw : s.ports.raw.toNat < 4096) :
    t.regs.filt.toNat = s.regs.filt.toNat - s.regs.filt.toNat / 16 + s.ports.raw.toNat := by
  have hfilt := s.regs.filt.isLt
  rw [h.filt_toNat_mod]
  omega

end Machine.FastFacts

/-- Settles O13: the difference does not borrow, and the sum wraps at 16 bits. -/
theorem filterStepOnEveryFastTick : Obligations.FilterStepOnEveryFastTick := by
  intro i s hi hwf
  obtain ⟨t, ht, hfast⟩ := exec_fast_facts hi hwf
  exact ⟨t, ht, hfast.filt_toNat_mod⟩

/-- Settles O14: of the sixteen divider values only 15 returns to 0. -/
theorem dividerSelectsTheConversion : Obligations.DividerSelectsTheConversion := by
  intro i s hi hwf
  obtain ⟨t, ht, hfast⟩ := exec_fast_facts hi hwf
  have hdiv := s.regs.secDiv.isLt
  refine ⟨t, ht, hfast.secDiv_toNat, ?_⟩
  rw [hfast.secTick_iff]
  omega

/-- Settles O19: R62's step, with the bound written as `filtBound`. -/
theorem filterNeverWraps : Obligations.FilterNeverWraps := by
  intro i s hi hwf hraw hfilt
  obtain ⟨t, ht, hfast⟩ := exec_fast_facts hi hwf
  have hfits := Machine.fits_iff.2 hraw
  exact ⟨t, ht, hfast.filt_toNat hwf hfits hfilt, hfast.filt_le hwf hfits hfilt⟩

/-- Settles O20: in the band `filt / 16` is the raw code, so the filter subtracts what it adds, and
SPLIT reads the raw code. -/
theorem steadyBandReadsTheRawCode : Obligations.SteadyBandReadsTheRawCode := by
  intro i s hi hwf hraw hlow hhigh
  obtain ⟨t, ht, hfast⟩ := exec_fast_facts hi hwf
  have hsteady : t.regs.filt = s.regs.filt := by
    apply BitVec.eq_of_toNat_eq
    rw [hfast.filt_toNat_of_raw_lt (by omega)]
    omega
  have hindex : (splitIndex s.regs.filt).toNat = s.ports.raw.toNat / 64 := by
    rw [splitIndex_toNat]
    omega
  have hfraction : (splitFraction s.regs.filt).toNat = s.ports.raw.toNat % 64 := by
    rw [splitFraction_toNat]
    omega
  refine ⟨t, ht, hsteady, fun hdue => ?_⟩
  obtain ⟨lo, hi', hlo, hhi, htemp⟩ := hfast.converted hdue
  rw [hsteady, hindex] at hlo hhi
  rw [hsteady, convertedValue_eq_ofInt, interpClosedForm, hfraction] at htemp
  exact ⟨lo, hi', hlo, hhi, htemp⟩

/-! #### A run with a constant raw code (R65) -/

theorem raw_lt_of_fits {p : Params} {q : Ports} (hwf : p.wf = true) (hfits : q.fits p.rawWidth = true) :
    q.raw.toNat < 4096 :=
  calc q.raw.toNat < 2 ^ p.rawWidth := Machine.fits_iff.1 hfits
    _ ≤ 2 ^ 12 := Nat.pow_le_pow_right (by decide) (wf_rawWidth hwf).2

theorem sample_ports_of_edge {s : State} {p : Ports} (h : EdgeHolds s 0 p) : (sample s).ports = p := by
  obtain ⟨hat, -⟩ := h
  rw [← List.head?_eq_getElem?] at hat
  obtain ⟨rest, hpending⟩ := List.head?_eq_some_iff.1 hat
  rw [Machine.sample_of_cons hpending, sampled_ports]

/-- How near the band of `r` the filter value `f` is after `k` ticks, by a move of at least 1 a tick:
below the band it has climbed to `k`, above it it has fallen to `65535 - k`. -/
structure FilterApproach (r k f : Nat) : Prop where
  climbed : min (16 * r) k ≤ f
  fallen : f ≤ max (16 * r + 15) (65535 - k)

theorem FilterApproach.zero (r : Nat) (f : Word) : FilterApproach r 0 f.toNat where
  climbed := by simp
  fallen := by have := f.isLt; omega

/-- Below the band the filter adds more than it subtracts, above it less, and it crosses neither edge. -/
theorem FilterApproach.succ {r k f : Nat} (h : FilterApproach r k f) :
    FilterApproach r (k + 1) (f - f / 16 + r) where
  climbed := by have := h.climbed; omega
  fallen := by have := h.fallen; omega

theorem FilterApproach.settled {r k f : Nat} (h : FilterApproach r k f) (hr : r < 4096) (hk : 65536 ≤ k) :
    16 * r ≤ f ∧ f ≤ 16 * r + 15 := by
  obtain ⟨hclimbed, hfallen⟩ := h
  omega

/-- Settles O21, by induction along the run: one more fast tick carries `FilterApproach`, and after
65536 ticks it leaves the band only. -/
theorem filterSettlesInTheBand : Obligations.FilterSettlesInTheBand := by
  intro s n r hwf hn hedges
  have hr : r.toNat < 4096 := by
    obtain ⟨p, ⟨-, hfits⟩, -, rfl⟩ := hedges 0 (by omega)
    exact raw_lt_of_fits hwf hfits
  have carried (k : Nat) (u : State) (hk : k < n) (hu : FilterApproach r.toNat k u.regs.filt.toNat)
      (hparams : u.params = s.params) (hpending : u.pending = s.pending.drop k) :
      ∃ t, step u = .next t ∧ t.params = u.params ∧ t.pending = u.pending.tail ∧
        FilterApproach r.toNat (k + 1) t.regs.filt.toNat := by
    obtain ⟨p, hedge, hfast, hraw⟩ := hedges k hk
    have hnext := edgeHolds_after hedge hparams hpending
    have hsampled : (sample u).ports.raw = r := by rw [sample_ports_of_edge hnext, hraw]
    obtain ⟨i, t, ht, hfacts⟩ := step_fast_edge (by rwa [hparams]) hnext hfast
    refine ⟨t, ht, (step_frame ht).1, (step_frame ht).2, ?_⟩
    rw [hfacts.filt_toNat_of_raw_lt (by rwa [hsampled]), hsampled, sample_regs]
    exact hu.succ
  obtain ⟨t, hrun, happroach, -, -⟩ :=
    run_induction (fun k u => FilterApproach r.toNat k u.regs.filt.toNat) (.zero _ _) carried n le_rfl
  exact ⟨t, hrun, happroach.settled hr hn⟩

/-! #### The parameters no command reads (R66, R76) -/

/-- Of the parameters a command reads the calibration table only. -/
theorem regsAfter_congr_params {s : State} {p : Params} (h : p.calTable = s.params.calTable) (i : Instr) :
    regsAfter i { s with params := p } = regsAfter i s := by
  cases i with
  | nop | menuTick | reset => rfl
  | fastTick | fastMenuTick => simp only [regsAfter, h]

/-- A command whose registers come out well commits them. -/
theorem exec_of_regsAfter {i : Instr} {s : State} {r : Regs} (h : regsAfter i s = .ok r) :
    exec i s = .next (s.withRegs r) := by
  rw [exec_eq_commit, h, commit]

/-- Settles O43: the same registers are committed, since neither parameter is the table. -/
theorem padModeAndScaleAreNotRead : Obligations.PadModeAndScaleAreNotRead := by
  intro i s t m c h
  obtain ⟨r, hr, rfl⟩ := exec_cases h
  exact ⟨_, exec_of_regsAfter ((regsAfter_congr_params rfl i).trans hr), rfl⟩

end Sys2Proof

/-! ### PWM, the duty-cycle comparator: the statements of spec/41_pwm.md -/

namespace Sys2Proof

open Machine

/-! #### The mode flags (R71, R72, R73, R75, R76) -/

@[simp] theorem notForcedOff_iff (q : Ports) :
    notForcedOff q = true ↔ q.off = false ∧ q.pause = false := by
  simp [notForcedOff]

@[simp] theorem pausedNotOff_iff (q : Ports) :
    pausedNotOff q = true ↔ q.pause = true ∧ q.off = false := by
  simp [pausedNotOff]

/-- R73's condition: either flag forces off. -/
theorem notForcedOff_eq_false {q : Ports} (h : q.off = true ∨ q.pause = true) : notForcedOff q = false := by
  rcases h with h | h <;> simp [notForcedOff, h]

/-! #### What PWM writes at a fast tick (R69 to R76), as conditions -/

namespace Machine.FastFacts

variable {i : Instr} {s t : State}

theorem o_of_counter_eq_zero (h : FastFacts i s t) (hc : s.regs.outputCounter = 0) :
    t.regs.o = s.ports.output := h.o.trans (if_pos hc)

theorem o_of_counter_ne_zero (h : FastFacts i s t) (hc : s.regs.outputCounter ≠ 0) :
    t.regs.o = s.regs.o := h.o.trans (if_neg hc)

theorem counter_toNat (h : FastFacts i s t) :
    t.regs.outputCounter.toNat = (s.regs.outputCounter.toNat + 1) % 100 := by
  rw [h.outputCounter, BitVec.toNat_ofNat]
  omega

theorem heat_iff (h : FastFacts i s t) :
    t.regs.heat = true ↔ s.ports.off = false ∧ s.ports.pause = false ∧ t.regs.o.toNat < 100 ∧
      s.regs.outputCounter.toNat < t.regs.o.toNat := by
  simp [h.heat, and_assoc]

theorem cool_iff (h : FastFacts i s t) :
    t.regs.cool = true ↔ s.ports.off = false ∧ s.ports.pause = false ∧
      s.regs.outputCounter.toNat + 100 < t.regs.o.toNat := by
  simp [h.cool, and_assoc]

theorem buzzer_iff (h : FastFacts i s t) :
    t.regs.buzzer = true ↔ s.ports.alarm = true ∧ 75 ≤ s.regs.outputCounter.toNat := by
  simp [h.buzzer]

theorem pauseInd_iff (h : FastFacts i s t) :
    t.regs.pauseInd = true ↔
      s.ports.pause = true ∧ s.ports.off = false ∧ s.regs.outputCounter.toNat % 2 = 0 := by
  simp [h.pauseInd, and_assoc]

theorem pumpOn_iff (h : FastFacts i s t) :
    t.regs.pumpOn = true ↔ s.ports.pump = true ∧ s.ports.pause = false ∧ s.ports.off = false := by
  simp [h.pumpOn, and_comm]

theorem heat_forced_off (h : FastFacts i s t) (hoff : s.ports.off = true ∨ s.ports.pause = true) :
    t.regs.heat = false := by simp [h.heat, notForcedOff_eq_false hoff]

theorem cool_forced_off (h : FastFacts i s t) (hoff : s.ports.off = true ∨ s.ports.pause = true) :
    t.regs.cool = false := by simp [h.cool, notForcedOff_eq_false hoff]

/-- R82: with the over-range value in `o` the gate `o < 100` fails. -/
theorem heat_of_overRange (h : FastFacts i s t) (ho : 201 ≤ t.regs.o.toNat) : t.regs.heat = false := by
  rw [Bool.eq_false_iff, ne_eq, h.heat_iff]
  rintro ⟨-, -, hlimit, -⟩
  omega

/-- R82: an over-range `o` exceeds `c + 100` at every counter value of the cycle. -/
theorem cool_of_overRange (h : FastFacts i s t) (ho : 201 ≤ t.regs.o.toNat)
    (hc : s.regs.outputCounter.toNat ≤ 99) (hoff : s.ports.off = false) (hpause : s.ports.pause = false) :
    t.regs.cool = true :=
  h.cool_iff.2 ⟨hoff, hpause, by omega⟩

end Machine.FastFacts

/-- Settles O31: heat needs `o < 100`, cool needs `o > 100`. -/
theorem relaysNeverBothOn : Obligations.RelaysNeverBothOn :=
  fun _ _ _ hi h => (fast_facts hi h).not_heat_and_cool

/-- Settles O32: whichever value the tick latches or keeps is over range, and R82's two comparators
follow. -/
theorem overRangeOutputCools : Obligations.OverRangeOutputCools := by
  intro i s hi hwf hc houtput hheld
  obtain ⟨t, ht, hfast⟩ := exec_fast_facts hi hwf
  have hover : 201 ≤ t.regs.o.toNat := by
    by_cases hzero : s.regs.outputCounter = 0
    · rw [hfast.o_of_counter_eq_zero hzero]
      exact houtput hzero
    · rw [hfast.o_of_counter_ne_zero hzero]
      exact hheld hzero
  exact ⟨t, ht, hfast.o_of_counter_eq_zero, hover, hfast.heat_of_overRange hover,
    hfast.cool_of_overRange hover hc⟩

/-! #### Runs of fast ticks, told by the registers -/

/-- Where `k` edges of a run from `s` have passed and its edge `k` is a fast tick with the values `p`,
the next step is that fast tick. -/
theorem step_fast_edge_after {s u : State} {k : Nat} {p : Ports} (hwf : s.params.wf = true)
    (hparams : u.params = s.params) (hpending : u.pending = s.pending.drop k)
    (hedge : EdgeHolds s k p) (hfast : p.isFast = true) :
    ∃ i t, step u = .next t ∧ (sample u).ports = p ∧ FastFacts i (sample u) t := by
  have hnext := edgeHolds_after hedge hparams hpending
  obtain ⟨i, t, ht, hfacts⟩ := step_fast_edge (by rwa [hparams]) hnext hfast
  exact ⟨i, t, ht, sample_ports_of_edge hnext, hfacts⟩

/-- What holds of the registers at the start and is carried by each fast tick whose port values satisfy
`P` holds along a run of such ticks. -/
theorem fast_run_induction {P : Ports → Prop} (Q : Nat → Regs → Prop) {s : State} {n : Nat}
    (hwf : s.params.wf = true) (hedges : FastEdges s n P) (hzero : Q 0 s.regs)
    (hsucc : ∀ k i u t, k < n → Q k u.regs → P u.ports → FastFacts i u t → Q (k + 1) t.regs)
    (k : Nat) (hk : k ≤ n) :
    ∃ t, RunsTo k s t ∧ Q k t.regs ∧ t.params = s.params ∧ t.pending = s.pending.drop k := by
  refine run_induction (fun j u => Q j u.regs) hzero ?carried k hk
  case carried =>
    intro j u hj hu hparams hpending
    obtain ⟨p, hedge, hfast, hp⟩ := hedges j hj
    obtain ⟨i, t, ht, hports, hfacts⟩ := step_fast_edge_after hwf hparams hpending hedge hfast
    exact ⟨t, ht, (step_frame ht).1, (step_frame ht).2,
      hsucc j i (sample u) t hj (by rwa [sample_regs]) (by rwa [hports]) hfacts⟩

/-! #### The duty over one cycle (R80) -/

/-- `h(v)` of R80: at how many ticks of a cycle heat is on. -/
def heatTicks (v : Nat) : Nat := if v ≤ 99 then v else 0

/-- `k(v)` of R80: at how many ticks of a cycle cool is on. -/
def coolTicks (v : Nat) : Nat := if 101 ≤ v then min (v - 100) 100 else 0

/-- R71's comparator holds at the first `h(v)` counter values. -/
theorem heat_compare_iff (v c : Nat) : v < 100 ∧ c < v ↔ c < heatTicks v := by
  unfold heatTicks
  split_ifs <;> omega

/-- R72's comparator holds at the first `k(v)` of a cycle's counter values. -/
theorem cool_compare_iff {c : Nat} (v : Nat) (hc : c < 100) : c + 100 < v ↔ c < coolTicks v := by
  unfold coolTicks
  split_ifs <;> omega

/-- What R80's cycle with `output = v` has written in `r` after its first `k` ticks: `o` and the relays
once there was a tick, the relays those of tick `k - 1`. -/
structure AfterCycleTicks (v : BitVec 8) (k : Nat) (r : Regs) : Prop where
  counter : r.outputCounter.toNat = k % 100
  latched : 0 < k → r.o = v
  heat : 0 < k → (r.heat = true ↔ k - 1 < heatTicks v.toNat)
  cool : 0 < k → (r.cool = true ↔ k - 1 < coolTicks v.toNat)

theorem AfterCycleTicks.zero {r : Regs} (v : BitVec 8) (h : r.outputCounter = 0) :
    AfterCycleTicks v 0 r where
  counter := by rw [h]; rfl
  latched := fun h => absurd h (Nat.lt_irrefl 0)
  heat := fun h => absurd h (Nat.lt_irrefl 0)
  cool := fun h => absurd h (Nat.lt_irrefl 0)

/-- The first tick of the cycle latches `v`, the others keep it, and each compares it with the count of
the ticks before. -/
theorem AfterCycleTicks.succ {v : BitVec 8} {k : Nat} {i : Instr} {s t : State}
    (h : AfterCycleTicks v k s.regs) (hk : k < 100)
    (hports : s.ports.output = v ∧ s.ports.off = false ∧ s.ports.pause = false)
    (hfast : FastFacts i s t) : AfterCycleTicks v (k + 1) t.regs := by
  obtain ⟨houtput, hoff, hpause⟩ := hports
  have hcount : s.regs.outputCounter.toNat = k := h.counter.trans (Nat.mod_eq_of_lt hk)
  have ho : t.regs.o = v := by
    by_cases hzero : s.regs.outputCounter = 0
    · rw [hfast.o_of_counter_eq_zero hzero, houtput]
    · have hpos : k ≠ 0 := fun hk₀ => hzero (BitVec.eq_of_toNat_eq (hcount.trans hk₀))
      rw [hfast.o_of_counter_ne_zero hzero, h.latched (Nat.pos_of_ne_zero hpos)]
  exact {
    counter := by rw [hfast.counter_toNat, hcount]
    latched := fun _ => ho
    heat := fun _ => by simp [hfast.heat_iff, ho, hcount, hoff, hpause, heat_compare_iff]
    cool := fun _ => by simp [hfast.cool_iff, ho, hcount, hoff, hpause, cool_compare_iff _ hk] }

/-- Settles O33, by induction along the cycle: one more fast tick carries `AfterCycleTicks`. -/
theorem dutyOverOneCycle : Obligations.DutyOverOneCycle := by
  intro s v hwf hcounter hedges n hn
  obtain ⟨t, hrun, hcycle, -, -⟩ :=
    fast_run_induction (AfterCycleTicks v) hwf hedges (.zero v hcounter)
      (fun _ _ _ _ hk hu hports hfacts => hu.succ hk hports hfacts) (n + 1) hn
  exact ⟨t, hrun, hcycle.heat n.succ_pos, hcycle.cool n.succ_pos⟩

/-! #### The latch in the middle of a cycle (R81) -/

/-- What R81 says of `r`, `k` fast ticks after the middle of a cycle in `r₀`. -/
structure LatchHeld (r₀ : Regs) (k : Nat) (r : Regs) : Prop where
  counter : r.outputCounter.toNat = (r₀.outputCounter.toNat + k) % 100
  o : r.o = r₀.o

theorem LatchHeld.zero {r₀ : Regs} (h : r₀.outputCounter.toNat ≤ 99) : LatchHeld r₀ 0 r₀ where
  counter := by omega
  o := rfl

/-- Inside the cycle the counter is not 0, so the tick does not latch. -/
theorem LatchHeld.succ {r₀ : Regs} {k : Nat} {i : Instr} {s t : State} (h : LatchHeld r₀ k s.regs)
    (hlow : 1 ≤ r₀.outputCounter.toNat) (hhigh : r₀.outputCounter.toNat + k < 100)
    (hfast : FastFacts i s t) : LatchHeld r₀ (k + 1) t.regs := by
  have hcount := h.counter
  have hne : s.regs.outputCounter ≠ 0 := fun hzero => by
    have htoNat : s.regs.outputCounter.toNat = 0 := by rw [hzero]; rfl
    omega
  exact {
    counter := by rw [hfast.counter_toNat, hcount]; omega
    o := (hfast.o_of_counter_ne_zero hne).trans h.o }

/-- Settles O34: the ticks left in the cycle carry `LatchHeld`, and after them the counter is back at 0,
where the next tick latches. -/
theorem outputChangeWaitsForTheCycle : Obligations.OutputChangeWaitsForTheCycle := by
  intro s n hwf hlow hhigh hcycle hedges
  obtain ⟨u, hrun, hheld, hparams, hpending⟩ :=
    fast_run_induction (LatchHeld s.regs) hwf hedges (.zero hhigh)
      (fun _ _ _ _ hk hu _ hfacts => hu.succ hlow (by omega) hfacts) n le_rfl
  refine ⟨⟨u, hrun, hheld.o⟩, fun p hend hedge hfast => ?latched⟩
  case latched =>
    obtain ⟨i, t, ht, hports, hfacts⟩ := step_fast_edge_after hwf hparams hpending hedge hfast
    have hzero : (sample u).regs.outputCounter = 0 := by
      rw [sample_regs]
      exact BitVec.eq_of_toNat_eq (by rw [hheld.counter, hend]; rfl)
    exact ⟨t, runsTo_snoc hrun ht, by rw [hfacts.o_of_counter_eq_zero hzero, hports]⟩

/-! #### The rules of one fast tick -/

/-- Settles O23: R69's two cases. -/
theorem latchOnlyAtTheCycleStart : Obligations.LatchOnlyAtTheCycleStart := by
  intro i s hi hwf
  obtain ⟨t, ht, hfast⟩ := exec_fast_facts hi hwf
  exact ⟨t, ht, hfast.o_of_counter_eq_zero, hfast.o_of_counter_ne_zero⟩

/-- Settles O24: the remainder fits the counter's 7 bits. -/
theorem dutyCounterCountsModulo100 : Obligations.DutyCounterCountsModulo100 := by
  intro i s hi hwf
  obtain ⟨t, ht, hfast⟩ := exec_fast_facts hi hwf
  exact ⟨t, ht, hfast.counter_toNat⟩

/-- Settles O25: R71's condition. -/
theorem heatComparator : Obligations.HeatComparator := by
  intro i s hi hwf
  obtain ⟨t, ht, hfast⟩ := exec_fast_facts hi hwf
  exact ⟨t, ht, hfast.heat_iff⟩

/-- Settles O26: R72's condition. -/
theorem coolComparator : Obligations.CoolComparator := by
  intro i s hi hwf
  obtain ⟨t, ht, hfast⟩ := exec_fast_facts hi hwf
  exact ⟨t, ht, hfast.cool_iff⟩

/-- Settles O27: the flags gate the two relays and neither the latch nor the counter. -/
theorem pauseOrOffForcesTheRelaysOff : Obligations.PauseOrOffForcesTheRelaysOff := by
  intro i s hi hwf hoff
  obtain ⟨t, ht, hfast⟩ := exec_fast_facts hi hwf
  exact ⟨t, ht, hfast.heat_forced_off hoff, hfast.cool_forced_off hoff, hfast.o, hfast.counter_toNat⟩

/-- Settles O28: R74's condition. -/
theorem buzzerInTheLastQuarter : Obligations.BuzzerInTheLastQuarter := by
  intro i s hi hwf
  obtain ⟨t, ht, hfast⟩ := exec_fast_facts hi hwf
  exact ⟨t, ht, hfast.buzzer_iff⟩

/-- Settles O29: R75's condition. -/
theorem pauseIndicatorBlinks : Obligations.PauseIndicatorBlinks := by
  intro i s hi hwf
  obtain ⟨t, ht, hfast⟩ := exec_fast_facts hi hwf
  exact ⟨t, ht, hfast.pauseInd_iff⟩

/-- Settles O30: R76's condition. -/
theorem pumpGate : Obligations.PumpGate := by
  intro i s hi hwf
  obtain ⟨t, ht, hfast⟩ := exec_fast_facts hi hwf
  exact ⟨t, ht, hfast.pumpOn_iff⟩

end Sys2Proof

/-! ### DEB, the button debounce filter: the statements of spec/42_debounce.md -/

namespace Sys2Proof

open Machine

/-! #### The class of a button is its two bits (R50, R51, R85) -/

@[simp] theorem btnCurrent_eq (h : BitVec 8) (b : Button) : btnCurrent h b = h.getLsbD (buttonBit b) := rfl

@[simp] theorem btnPrevious_eq (h : BitVec 8) (b : Button) :
    btnPrevious h b = h.getLsbD (buttonBit b + 4) := rfl

theorem buttonBit_lt (b : Button) : buttonBit b < 4 := by cases b <;> decide

/-- Every bit of a nibble is a button's. -/
theorem exists_buttonBit_eq : ∀ {i : Nat}, i < 4 → ∃ b, buttonBit b = i
  | 0, _ => ⟨.down, rfl⟩
  | 1, _ => ⟨.up, rfl⟩
  | 2, _ => ⟨.select, rfl⟩
  | 3, _ => ⟨.power, rfl⟩

/-- Two pairs of bits have the same class only where they are the same. -/
theorem classOf_inj {p c p' c' : Bool} : classOf p c = classOf p' c' ↔ p = p' ∧ c = c' := by
  revert p c p' c'
  decide

theorem classify_eq_classOf_iff {h : BitVec 8} {b : Button} {p c : Bool} :
    classify h b = classOf p c ↔ h.getLsbD (buttonBit b + 4) = p ∧ h.getLsbD (buttonBit b) = c :=
  classOf_inj

theorem classify_eq_idle_iff {h : BitVec 8} {b : Button} :
    classify h b = .idle ↔ h.getLsbD (buttonBit b + 4) = false ∧ h.getLsbD (buttonBit b) = false :=
  classify_eq_classOf_iff (p := false) (c := false)

theorem classify_eq_released_iff {h : BitVec 8} {b : Button} :
    classify h b = .released ↔ h.getLsbD (buttonBit b + 4) = true ∧ h.getLsbD (buttonBit b) = false :=
  classify_eq_classOf_iff (p := true) (c := false)

theorem classify_eq_held_iff {h : BitVec 8} {b : Button} :
    classify h b = .held ↔ h.getLsbD (buttonBit b + 4) = true ∧ h.getLsbD (buttonBit b) = true :=
  classify_eq_classOf_iff (p := true) (c := true)

/-! #### The class by its mask (R85) -/

/-- The mask `0x11 << i` keeps the button's two bits. -/
theorem getLsbD_buttonMask (b : Button) :
    ∀ i < 8, (0x11#8 <<< buttonBit b).getLsbD i = decide (i = buttonBit b ∨ i = buttonBit b + 4) := by
  cases b <;> decide

/-- Histories that agree under a button's mask are those in which it has one class. -/
theorem classify_eq_classify_iff_mask (h g : BitVec 8) (b : Button) :
    classify h b = classify g b ↔
      h &&& (0x11#8 <<< buttonBit b) = g &&& (0x11#8 <<< buttonBit b) := by
  have hbit := buttonBit_lt b
  rw [classify, classify, classOf_inj, btnPrevious_eq, btnPrevious_eq, btnCurrent_eq, btnCurrent_eq]
  constructor
  · rintro ⟨hprevious, hcurrent⟩
    refine BitVec.eq_of_getLsbD_eq fun i hi => ?_
    rw [BitVec.getLsbD_and, BitVec.getLsbD_and, getLsbD_buttonMask b i hi]
    by_cases hi' : i = buttonBit b ∨ i = buttonBit b + 4
    · rcases hi' with rfl | rfl
      · rw [hcurrent]
      · rw [hprevious]
    · simp [hi']
  · intro hmask
    have at_bit (i : Nat) (hi : i < 8) (hkept : i = buttonBit b ∨ i = buttonBit b + 4) :
        h.getLsbD i = g.getLsbD i := by
      simpa [getLsbD_buttonMask b i hi, hkept] using congrArg (·.getLsbD i) hmask
    exact ⟨at_bit _ (by omega) (.inr rfl), at_bit _ (by omega) (.inl rfl)⟩

/-- Settles O36: each mask value is that of a history in which every button has the class. -/
theorem classByMask : Obligations.ClassByMask := by
  intro h b
  have idle : classify 0x00 b = .idle := by cases b <;> rfl
  have pressed : classify 0x0F b = .pressed := by cases b <;> rfl
  have released : classify 0xF0 b = .released := by cases b <;> rfl
  have held : classify 0xFF b = .held := by cases b <;> rfl
  refine ⟨?idle, ?pressed, ?released, ?held⟩
  case idle => rw [← idle, classify_eq_classify_iff_mask, BitVec.ofNat_eq_ofNat, BitVec.zero_and]
  case pressed => rw [← pressed, classify_eq_classify_iff_mask, BitVec.and_comm 0x0F]
  case released => rw [← released, classify_eq_classify_iff_mask, BitVec.and_comm 0xF0]
  case held =>
    rw [← held, classify_eq_classify_iff_mask, show (0xFF : BitVec 8) = BitVec.allOnes 8 from rfl,
      BitVec.allOnes_and]

/-! #### The button outputs (R86, R87, R88) -/

@[simp] theorem mem_allButtons (b : Button) : b ∈ allButtons := by cases b <;> decide

theorem getLsbD_heldOrReleased (h : BitVec 8) (b : Button) :
    (heldOrReleased h).getLsbD (buttonBit b) = h.getLsbD (buttonBit b + 4) := by
  simp [heldOrReleased, buttonBit_lt b, Nat.add_comm]

/-- Held and Released are the two classes with a previous sample of 1. -/
theorem getLsbD_heldOrReleased_iff (h : BitVec 8) (b : Button) :
    (heldOrReleased h).getLsbD (buttonBit b) = true ↔ classify h b = .held ∨ classify h b = .released := by
  rw [getLsbD_heldOrReleased, classify_eq_held_iff, classify_eq_released_iff, ← and_or_left,
    and_iff_left (Bool.eq_false_or_eq_true _)]

theorem ackEvent_iff (h : BitVec 8) :
    ackEvent h = true ↔ (∃ b, classify h b = .released) ∧ ¬∃ b, classify h b = .held := by
  simp [ackEvent]

/-- Every bit of the history is one of a button's two, so it is 0 exactly when all buttons are Idle. -/
theorem eq_zero_iff_forall_idle (h : BitVec 8) : h = 0 ↔ ∀ b, classify h b = .idle := by
  constructor
  · rintro rfl b
    exact classify_eq_idle_iff.2 ⟨BitVec.getLsbD_zero, BitVec.getLsbD_zero⟩
  · intro hidle
    refine BitVec.eq_of_getLsbD_eq fun i hi => ?_
    rw [BitVec.ofNat_eq_ofNat, BitVec.getLsbD_zero]
    by_cases hlow : i < 4
    · obtain ⟨b, rfl⟩ := exists_buttonBit_eq hlow
      exact (classify_eq_idle_iff.1 (hidle b)).2
    · obtain ⟨b, hb⟩ := exists_buttonBit_eq (i := i - 4) (by omega)
      obtain rfl : i = buttonBit b + 4 := by omega
      exact (classify_eq_idle_iff.1 (hidle b)).1

theorem anyActive_iff (h : BitVec 8) : anyActive h = true ↔ ∃ b, classify h b ≠ .idle := by
  rw [anyActive, bne_iff_ne, ne_eq, eq_zero_iff_forall_idle, not_forall]

/-- Settles O37: the three outputs are by definition the functions of the history named here, each with its
rule. -/
theorem buttonOutputs : Obligations.ButtonOutputs :=
  fun s => ⟨getLsbD_heldOrReleased_iff s.regs.btnHist, ackEvent_iff s.regs.btnHist,
    anyActive_iff s.regs.btnHist⟩

/-! #### What a menu tick writes (R84, R94, R96) -/

/-- R84's two forms of the shifted history: the mask and the sum, or the two nibbles side by side. -/
theorem shifted_history_eq (h : BitVec 8) (x : Nibble) :
    ((h <<< 4) &&& 0xF0) ||| x.setWidth 8 = h.extractLsb' 0 4 ++ x := by
  have high_mask : ∀ i < 8, (0xF0 : BitVec 8).getLsbD i = decide (4 ≤ i) := by decide
  refine BitVec.eq_of_getLsbD_eq fun i hi => ?_
  rw [BitVec.getLsbD_or, BitVec.getLsbD_and, high_mask i hi, BitVec.getLsbD_shiftLeft,
    BitVec.getLsbD_setWidth, BitVec.getLsbD_append, BitVec.getLsbD_extractLsb']
  by_cases hlow : i < 4
  · simp [hlow, hi]
  · have hhigh : 4 ≤ i ∧ i - 4 < 4 := by omega
    simp [hlow, hi, hhigh]

theorem btnSample_btnHist_eq (q : Ports) (r : Regs) :
    (btnSample q r).btnHist = r.btnHist.extractLsb' 0 4 ++ q.btnIn :=
  shifted_history_eq r.btnHist q.btnIn

theorem btnSample_eq (q : Ports) (r : Regs) :
    btnSample q r = { r with btnHist := r.btnHist.extractLsb' 0 4 ++ q.btnIn } := by
  rw [btnSample, shifted_history_eq]

/-- Both menu commands leave the history that BTN_SAMPLE writes. -/
theorem exec_menu_btnHist {i : Instr} {s t : State} (hi : IsMenuCommand i) (h : exec i s = .next t) :
    t.regs.btnHist = s.regs.btnHist.extractLsb' 0 4 ++ s.ports.btnIn := by
  rw [← btnSample_btnHist_eq]
  rcases hi with rfl | rfl
  · cases h
    rfl
  · rw [(fast_facts (.inr rfl) h).btnHist, if_neg (by decide)]

theorem exec_menuTick (s : State) : exec .menuTick s = .next (s.withRegs (btnSample s.ports s.regs)) := rfl

/-- Settles O35: MENU_TICK is BTN_SAMPLE, and the fast half that follows it in FAST_MENU_TICK leaves the
history. -/
theorem menuTickShiftsTheHistory : Obligations.MenuTickShiftsTheHistory := by
  refine ⟨fun s => ?menu, fun s hwf => ?fast_menu⟩
  case menu => rw [exec_menuTick, btnSample_eq, State.withRegs]
  case fast_menu =>
    obtain ⟨t, ht⟩ := exec_completes hwf .fastMenuTick
    exact ⟨t, ht, exec_menu_btnHist (.inr rfl) ht⟩

/-! #### The class after a menu tick (R90) -/

/-- The current sample of a button of the class. -/
def ButtonClass.current : ButtonClass → Bool
  | .idle | .released => false
  | .pressed | .held => true

@[simp] theorem classOf_current (p c : Bool) : (classOf p c).current = c := by
  cases p <;> cases c <;> rfl

theorem classify_current (h : BitVec 8) (b : Button) :
    (classify h b).current = h.getLsbD (buttonBit b) := classOf_current ..

/-- The class after a new sample `v`: what was the current sample is now the previous one (R84). -/
def nextClass (c : ButtonClass) (v : Bool) : ButtonClass := classOf c.current v

theorem classify_shifted_history (h : BitVec 8) (x : Nibble) (b : Button) :
    classify (h.extractLsb' 0 4 ++ x) b = nextClass (classify h b) (x.getLsbD (buttonBit b)) := by
  have hbit := buttonBit_lt b
  rw [nextClass, classify_current, classify_eq_classOf_iff, BitVec.getLsbD_append, BitVec.getLsbD_append]
  constructor <;> simp [hbit]

theorem exec_menu_classify {i : Instr} {s t : State} (hi : IsMenuCommand i) (h : exec i s = .next t)
    (b : Button) : classify t.regs.btnHist b =
      nextClass (classify s.regs.btnHist b) (s.ports.btnIn.getLsbD (buttonBit b)) := by
  rw [exec_menu_btnHist hi h, classify_shifted_history]

/-- Settles O38: R90's table is `nextClass`, row by row. -/
theorem classTransitionTable : Obligations.ClassTransitionTable := by
  intro i s b hi hwf
  obtain ⟨t, ht⟩ := exec_completes hwf i
  refine ⟨t, ht, ?_⟩
  rw [exec_menu_classify hi ht b]
  cases classify s.regs.btnHist b <;> cases s.ports.btnIn.getLsbD (buttonBit b) <;> rfl

/-! #### A run of menu ticks (R89) -/

theorem isMenuCommand_decode_cmd {p : Ports} (h : p.isMenu = true) : IsMenuCommand (decode p.cmd) := by
  obtain ⟨hrst, hmenu⟩ : p.rst = false ∧ p.menuTick = true := by simpa [Ports.isMenu] using h
  rw [decode_cmd, hrst, hmenu]
  cases p.fastTick with
  | false => exact .inl rfl
  | true => exact .inr rfl

/-- A next edge that is a menu tick with the sample `v` moves the button's class by R90's table. -/
theorem step_menu_edge {s : State} {p : Ports} (hwf : s.params.wf = true) (hedge : EdgeHolds s 0 p)
    (hmenu : p.isMenu = true) (b : Button) :
    ∃ t, step s = .next t ∧ classify t.regs.btnHist b =
      nextClass (classify s.regs.btnHist b) (p.btnIn.getLsbD (buttonBit b)) := by
  have hports := sample_ports_of_edge hedge
  obtain ⟨t, ht⟩ := exec_completes (by rwa [sample_params]) (decode (sample s).ports.cmd)
  refine ⟨t, (step_of_fits (by rw [hports]; exact hedge.2)).trans ht, ?_⟩
  rw [exec_menu_classify (isMenuCommand_decode_cmd (by rwa [hports])) ht b, sample_regs, hports]

/-- The class of an Idle button after the first samples of the sequence `v`, as many as the argument
says. -/
def classAfter (v : Nat → Bool) : Nat → ButtonClass
  | 0 => .idle
  | k + 1 => nextClass (classAfter v k) (v k)

theorem classAfter_one (v : Nat → Bool) : classAfter v 1 = classOf false (v 0) := rfl

/-- From the second sample on, the class is that of the last two samples. -/
theorem classAfter_add_two (v : Nat → Bool) (k : Nat) :
    classAfter v (k + 2) = classOf (v k) (v (k + 1)) := by
  rw [classAfter, classAfter, nextClass, nextClass, classOf_current]

theorem menu_run {s : State} {b : Button} {n : Nat} {v : Nat → Bool} (hwf : s.params.wf = true)
    (hidle : classify s.regs.btnHist b = .idle) (hedges : ∀ k, k < n → MenuEdge s k b (v k)) :
    ∃ t, RunsTo n s t ∧ classify t.regs.btnHist b = classAfter v n := by
  have carried (k : Nat) (u : State) (hk : k < n) (hu : classify u.regs.btnHist b = classAfter v k)
      (hparams : u.params = s.params) (hpending : u.pending = s.pending.drop k) :
      ∃ t, step u = .next t ∧ t.params = u.params ∧ t.pending = u.pending.tail ∧
        classify t.regs.btnHist b = classAfter v (k + 1) := by
    obtain ⟨p, hedge, hmenu, hv⟩ := hedges k hk
    obtain ⟨t, ht, hclass⟩ :=
      step_menu_edge (by rwa [hparams]) (edgeHolds_after hedge hparams hpending) hmenu b
    exact ⟨t, ht, (step_frame ht).1, (step_frame ht).2, by rw [hclass, hu, hv, classAfter]⟩
  obtain ⟨t, hrun, hclass, -, -⟩ :=
    run_induction (fun k u => classify u.regs.btnHist b = classAfter v k) hidle carried n le_rfl
  exact ⟨t, hrun, hclass⟩

/-- No sample of 1, no event. -/
theorem classAfter_false (n : Nat) : classAfter (fun _ => false) n = .idle := by
  induction n with
  | zero => rfl
  | succ n ih => rw [classAfter, ih]; rfl

/-- The samples of a press of `m + 1` menu ticks. -/
def pressSamples (m k : Nat) : Bool := decide (k ≤ m)

theorem pressSamples_of_le {m k : Nat} (h : k ≤ m) : pressSamples m k = true := decide_eq_true h

theorem pressSamples_of_lt {m k : Nat} (h : m < k) : pressSamples m k = false :=
  decide_eq_false (Nat.not_le.2 h)

theorem classAfter_press_first (m : Nat) : classAfter (pressSamples m) 1 = .pressed := by
  rw [classAfter_one, pressSamples_of_le (Nat.zero_le m), classOf]

theorem classAfter_press_further {m k : Nat} (hlow : 1 ≤ k) (hhigh : k ≤ m) :
    classAfter (pressSamples m) (k + 1) = .held := by
  obtain ⟨j, rfl⟩ : ∃ j, k = j + 1 := ⟨k - 1, by omega⟩
  rw [classAfter_add_two, pressSamples_of_le (by omega), pressSamples_of_le hhigh, classOf]

theorem classAfter_press_released (m : Nat) : classAfter (pressSamples m) (m + 2) = .released := by
  rw [classAfter_add_two, pressSamples_of_le le_rfl, pressSamples_of_lt (by omega), classOf]

theorem classAfter_press_over (m : Nat) : classAfter (pressSamples m) (m + 3) = .idle := by
  rw [classAfter_add_two, pressSamples_of_lt (by omega), pressSamples_of_lt (by omega), classOf]

/-- Settles O39: each clause is `menu_run` over as many samples of the press as it names. -/
theorem buttonPressSequence : Obligations.ButtonPressSequence := by
  intro s b m hwf hidle
  refine ⟨fun hpress => ?pressed, fun hzero => ?never_pressed⟩
  case pressed =>
    have during {k : Nat} (hk : k ≤ m) : MenuEdge s k b (pressSamples m k) := by
      rw [pressSamples_of_le hk]
      exact hpress k hk
    refine ⟨?first, fun k hlow hhigh => ?further, fun hrelease => ?released⟩
    case first =>
      rw [← classAfter_press_first m]
      exact menu_run hwf hidle fun k hk => during (by omega)
    case further =>
      rw [← classAfter_press_further hlow hhigh]
      exact menu_run hwf hidle fun j hj => during (by omega)
    case released =>
      have until_release {k : Nat} (hk : k ≤ m + 1) : MenuEdge s k b (pressSamples m k) := by
        obtain hk | rfl := Nat.le_succ_iff.1 hk
        · exact during hk
        · rwa [pressSamples_of_lt (Nat.lt_succ_self m)]
      refine ⟨?_, fun hover => ?_⟩
      · rw [← classAfter_press_released m]
        exact menu_run hwf hidle fun k hk => until_release (by omega)
      · rw [← classAfter_press_over m]
        refine menu_run hwf hidle fun k hk => ?_
        obtain hk | rfl := Nat.le_succ_iff.1 (Nat.lt_succ_iff.1 hk)
        · exact until_release hk
        · rwa [pressSamples_of_lt (by omega)]
  case never_pressed =>
    rw [← classAfter_false m]
    exact menu_run hwf hidle hzero

end Sys2Proof

/-! ### The commands: the statements of spec/43_commands.md -/

namespace Sys2Proof

open Machine

/-! #### NOP and RESET (R93, R97, R112) -/

/-- Settles O6: NOP's meaning is its own state. -/
theorem nopKeepsEverything : Obligations.NopKeepsEverything := fun _ => rfl

theorem exec_reset (s : State) : exec .reset s = .next (s.withRegs Regs.reset) := rfl

theorem decode_cmd_of_rst {p : Ports} (h : p.rst = true) : decode p.cmd = .reset := by
  rw [decode_cmd, if_pos h]

/-- A described edge with `rst = 1` is RESET, whatever the tick strobes hold (R112). -/
theorem step_of_rst {s : State} {p : Ports} {rest : List Ports} (hpending : s.pending = p :: rest)
    (hfits : p.fits s.params.rawWidth = true) (hrst : p.rst = true) :
    step s = .next ((s.sampled p rest).withRegs Regs.reset) := by
  rw [step_of_pending_cons hpending hfits, decode_cmd_of_rst hrst, exec_reset]

/-- Settles O8: the step is RESET, which writes the registers only. -/
theorem resetDominatesTheTicks : Obligations.ResetDominatesTheTicks :=
  fun _ _ _ hpending hfits hrst => ⟨_, step_of_rst hpending hfits hrst, rfl, rfl, rfl⟩

/-! #### The frame of the fast ticks (R13, R95, R96) -/

/-- Settles O40: `FastFacts` has the register clauses and the frame, and BTN_SAMPLE's history is R96's. -/
theorem fastTickFrame : Obligations.FastTickFrame := by
  intro i s t hi h
  have hfast := fast_facts hi h
  refine ⟨?fast, ?fast_menu, hfast.held, hfast.o_of_counter_ne_zero, hfast.frame⟩
  case fast => exact fun hfastTick => hfast.btnHist.trans (if_pos hfastTick)
  case fast_menu => exact fun hfastMenu => exec_menu_btnHist (.inr hfastMenu) h

/-! #### BTN_SAMPLE before or after the fast half (R96, R98) -/

/-- CONVERT neither reads nor writes `btn_hist`, so BTN_SAMPLE may come before or after it, a faulting
conversion included. -/
theorem convert_btnSample (m : Memory) (q q' : Ports) (due : Bool) (r : Regs) :
    convert m q due (btnSample q' r) = (convert m q due r).map (btnSample q') := by
  cases due with
  | false => rfl
  | true =>
    simp only [convert, if_true, btnSample_filt]
    cases calPair m (splitIndex r.filt) <;> rfl

theorem acqStep_btnSample (m : Memory) (q q' : Ports) (r : Regs) :
    acqStep m q (btnSample q' r) = (acqStep m q r).map (btnSample q') :=
  convert_btnSample m q q' (convertDue (secDivStep (filterStep q r))) (secDivStep (filterStep q r))

theorem pwmStep_btnSample (q q' : Ports) (r : Regs) :
    pwmStep q (btnSample q' r) = btnSample q' (pwmStep q r) := by
  cases r; rfl

theorem fastHalf_btnSample (m : Memory) (q q' : Ports) (r : Regs) :
    fastHalf m q (btnSample q' r) = (fastHalf m q r).map (btnSample q') := by
  rw [fastHalf, fastHalf, acqStep_btnSample]
  cases acqStep m q r with
  | error f => rfl
  | ok r' => exact congrArg Except.ok (pwmStep_btnSample q q' r')

/-- A commit replaces every register, so it does not see those it starts from. -/
theorem commit_withRegs (s : State) (r : Regs) (x : Except Fault Regs) :
    commit (s.withRegs r) x = commit s x := by
  cases x <;> rfl

theorem exec_fastMenuTick_eq_menu_first (s : State) :
    exec .fastMenuTick s = exec .fastTick (s.withRegs (btnSample s.ports s.regs)) :=
  (commit_withRegs ..).symm

/-- Committing a working copy after BTN_SAMPLE is committing it and then MENU_TICK. -/
theorem commit_map_btnSample {s t : State} {x : Except Fault Regs} :
    commit s (x.map (btnSample s.ports)) = .next t ↔
      ∃ u, commit s x = .next u ∧ exec .menuTick u = .next t := by
  cases x with
  | ok r => simp [commit, Except.map, exec_menuTick]
  | error f => simp [commit, Except.map]

/-- Settles O41: with the menu tick first the fast half runs on the sampled registers as FAST_MENU_TICK
does; with it last BTN_SAMPLE commutes with the fast half. -/
theorem fastMenuIsBothTicksInEitherOrder : Obligations.FastMenuIsBothTicksInEitherOrder := by
  intro s t
  refine ⟨?menu_first, ?fast_first⟩
  case menu_first => simp [exec_menuTick, exec_fastMenuTick_eq_menu_first]
  case fast_first =>
    rw [exec_eq_commit .fastMenuTick, regsAfter, fastHalf_btnSample, exec_eq_commit .fastTick]
    exact commit_map_btnSample

end Sys2Proof

/-! ### Faults, refusals and completion: the statements of spec/60_exceptions.md -/

namespace Sys2Proof

open Machine

/-! #### A step that is refused (R106) -/

theorem runSampled_of_not_fits {s : State} (h : ¬s.ports.fits s.params.rawWidth = true) :
    runSampled s = .refused .portTooWide :=
  if_neg h

/-- Settles O5: the test comes before the command is decoded, and `raw` fails it. -/
theorem tooWideRawIsRefused : Obligations.TooWideRawIsRefused := by
  intro s p rest hpending hwide
  have hnot : ¬p.fits s.params.rawWidth = true := fun hfits => (fits_iff.1 hfits).not_ge hwide
  rw [step, Machine.sample_of_cons hpending]
  exact runSampled_of_not_fits hnot

/-! #### Completion under an admitted parameter set (R35, R101) -/

/-- Settles O9: an admitted table has both entries of every conversion. -/
theorem everyCommandCompletes : Obligations.EveryCommandCompletes :=
  fun i _ hwf => exec_completes hwf i

/-! #### A conversion at the end of a short table (R105) -/

/-- Where the table ends with entry `b`, the pair's second read is the one that faults. -/
theorem calPair_of_last {m : Memory} {b : BitVec Config.indexBits} (h : m.length = b.toNat + 1) :
    calPair m b = .error (.calIndexOutOfRange (b.toNat + 1)) := by
  have hlo : calRead m b.toNat = .ok m[b.toNat] := calRead_of_lt (by omega)
  have hhi : calRead m (b.toNat + 1) = .error (.calIndexOutOfRange (b.toNat + 1)) := calRead_of_ge h.le
  simp only [calPair, hlo, hhi]

/-- A converting tick stops with the fault of its table reads (R60). -/
theorem acqStep_of_calPair_error {m : Memory} {q : Ports} {r : Regs} {f : Fault}
    (hdue : convertDue (secDivStep r) = true)
    (hpair : calPair m (splitIndex (filterStep q r).filt) = .error f) : acqStep m q r = .error f := by
  have hdue' : convertDue (secDivStep (filterStep q r)) = true := hdue
  simp only [acqStep, convert, hdue', if_true, secDivStep_filt, hpair]

theorem fastHalf_of_acqStep_error {m : Memory} {q : Ports} {r : Regs} {f : Fault}
    (h : acqStep m q r = .error f) : fastHalf m q r = .error f := by
  rw [fastHalf, h]

/-- A fast command commits the fast half of registers whose filter and divider are the state's own:
FAST_MENU_TICK's BTN_SAMPLE leaves both (R95, R96). -/
theorem exec_fast_eq_commit {i : Instr} (hi : IsFastCommand i) (s : State) :
    ∃ r, exec i s = commit s (fastHalf s.params.calTable s.ports r) ∧
      r.filt = s.regs.filt ∧ r.secDiv = s.regs.secDiv := by
  obtain rfl | rfl := hi
  · exact ⟨s.regs, rfl, rfl, rfl⟩
  · exact ⟨btnSample s.ports s.regs, rfl, rfl, rfl⟩

/-- Settles O12: with `b = 31` the last of 32 entries is `lo`, so reading `hi` faults; a tick that does
not convert reads no entry. -/
theorem shortTableFaultsAtTheTop : Obligations.ShortTableFaultsAtTheTop := by
  intro i s hi
  obtain ⟨r, hexec, hfilt, hdiv⟩ := exec_fast_eq_commit hi s
  rw [hexec, ← hdiv]
  refine ⟨fun hlength hdue hindex => ?faults, fun hnot => ?completes⟩
  case faults =>
    have hb : (splitIndex (filterStep s.ports r).filt).toNat = 31 := by
      rw [splitIndex_toNat, filterStep_filt, hfilt, hindex]
    have hpair := calPair_of_last (hlength.trans (congrArg (· + 1) hb.symm))
    rw [hb] at hpair
    rw [fastHalf_of_acqStep_error (acqStep_of_calPair_error ((convertDue_iff r).2 hdue) hpair), commit]
  case completes =>
    have hacq := acqStep_not_due (m := s.params.calTable) (q := s.ports) ((not_convertDue_iff r).2 hnot)
    exact ⟨_, commit_next.2 ⟨_, fastHalf_eq_ok.2 ⟨_, hacq, rfl⟩, rfl⟩⟩

end Sys2Proof

/-! ### Reset and progress: the statements of spec/70_reset_and_hazards.md -/

namespace Sys2Proof

open Machine

/-- Settles O10: the sampled values fit their ports, described or free, so the step runs its command,
and no command faults on an admitted table. -/
theorem stepNeverStops : Obligations.StepNeverStops := fun _ => step_completes

/-- Settles O7: the reset state holds `Regs.reset`, and RESET commits the same registers over any state. -/
theorem resetGivesAllZero : Obligations.ResetGivesAllZero := ⟨rfl, exec_reset⟩

end Sys2Proof
